-- ==== Sys2Proof/Word.lean ====
section
/-! DEFINITION. The word types of the PowerPC 405: every core register is 32 bits (spec 10_state.md R30), storage is
byte addressed (20_memory.md R120), and a register number is five bits (30_encoding.md R203). -/
namespace Sys2Proof

/-- A 32-bit register, effective address, real address or instruction word (R30, R120, R200). -/
abbrev Word := BitVec 32

/-- One byte of storage (R120). -/
abbrev Byte := BitVec 8

/-- A general purpose register number, as an instruction field carries it (R31, R203). -/
abbrev Reg := BitVec 5

end Sys2Proof
end

