-- ==== Sys2Proof/Config.lean ====
section
/-! DEFINITION. The free values of the model: what the spec calls `any value` (93_implementation_defined.md section 1), and
what the chip around the core answers (MEMORY_MAP and DCR_SPACE, 00_scope.md R9). -/
namespace Sys2Proof

/-- DESIGN CHOICE (log entry 6; safe). The k-th value the spec leaves free. It has no body, so no proof can learn what
it is and a claim is true whatever it is. Each draw applies it to `State.freeCount` and advances that counter. The
narrower free values (four bits of CR0, a byte) are parts of one drawn word. -/
opaque Config.freeWord : Nat → Word

/-- An access that the host evaluates: a load or a store at a device's real address with its width, or a read or a write of
a device control register (20_memory.md R180, 10_state.md R112, D8 to D10). The bytes of a store stand in address order. -/
inductive HostAccess where
  | load (address : Word) (width : Nat)
  | store (address : Word) (bytes : List Byte)
  | dcrRead (number : BitVec 10)
  | dcrWrite (number : BitVec 10) (value : Word)
deriving DecidableEq, Repr

/-- DESIGN CHOICE (log entry 35; safe). MEMORY_MAP's answer to a load from a device: byte `index` of an access of `width`
bytes at a real address, after the accesses in `history`, the latest first. No body: any device is covered. -/
opaque Config.deviceByte (history : List HostAccess) (address : Word) (width index : Nat) : Byte

/-- DESIGN CHOICE (log entry 25; safe). DCR_SPACE's read function: the value of a mapped device control register after the
accesses in `history`, the latest first; its write function is the place of the write in the history. No body. -/
opaque Config.dcrValue (history : List HostAccess) (number : BitVec 10) : Word

end Sys2Proof
end

