-- ==== Sys2Proof/Machine/Bits.lean ====
section
/-! DEFINITION. Bits and fields in the manual's numbering: bit 0 is the most significant bit (00_scope.md R10). -/
namespace Sys2Proof.Machine

/-- Bit `i` of a word. -/
def bitOf (x : Word) (i : Nat) : Bool := x.getLsbD (31 - i)

/-- The word whose only 1 bit is bit `i`. -/
def bitMask (i : Nat) : Word := 1#32 <<< (31 - i)

/-- A word with bit `i` replaced. -/
def withBit (x : Word) (i : Nat) (b : Bool) : Word := if b then x ||| bitMask i else x &&& ~~~bitMask i

/-- Bits `a` to `b` of a word. -/
def bitField (x : Word) (a b : Nat) : BitVec (b + 1 - a) := x.extractLsb' (31 - b) (b + 1 - a)

/-- A bit as a number. -/
def bitNat (b : Bool) : Nat := if b then 1 else 0

/-- A bit as a word. -/
def bitWord (b : Bool) : Word := if b then 1 else 0

/-- Sign extension of a 16-bit immediate or displacement (00_scope.md R11, 30_encoding.md R203). -/
def sext16 (x : BitVec 16) : Word := x.signExtend 32

/-- Zero extension of a 16-bit immediate (44_logical_compare.md R413). -/
def zext16 (x : BitVec 16) : Word := x.setWidth 32

/-- A 16-bit immediate with sixteen 0 bits on its right (42_arithmetic.md R337). -/
def shifted16 (x : BitVec 16) : Word := x ++ 0#16

/-- The word that a list of bytes spells, the first byte most significant (20_memory.md R125). -/
def wordOfByteList (bs : List Byte) : Word := bs.foldl (fun acc b => (acc <<< 8) ||| b.setWidth 32) 0

/-- The low-order `n` bytes of a word, the most significant first (20_memory.md R125). -/
def byteListOfWord (n : Nat) (v : Word) : List Byte := (List.range n).map fun i => v.extractLsb' (8 * (n - 1 - i)) 8

/-- `MASK(mb, me)`: 1 bits from bit mb through bit me, wrapping if mb > me (46_rotate_shift.md R480). -/
def rotateMask (mb me : BitVec 5) : Word :=
  let fromMb : Word := BitVec.allOnes 32 >>> mb.toNat
  let toMe : Word := BitVec.allOnes 32 <<< (31 - me.toNat)
  if mb ≤ me then fromMb &&& toMe else fromMb ||| toMe

end Sys2Proof.Machine
end

