-- ==== Sys2Proof/Machine/State.lean ====
section
/-! DEFINITION. The state of the machine as plain data, why a step can stop, and the state after reset.

Registers are those of spec/10_state.md; INVENTORY.md lists each with its rule. Fields marked MODEL are the model's own. -/
namespace Sys2Proof.Machine

/-- A UTLB entry (10_state.md R114). -/
structure TlbEntry where
  /-- effective page number -/
  epn : BitVec 22
  /-- page size code: the page is 1 KB x 4^size (20_memory.md R142) -/
  size : BitVec 3
  /-- valid -/
  v : Bool
  /-- little endian -/
  e : Bool
  /-- user-defined attribute -/
  u0 : Bool
  /-- translation ID; 0 matches every PID -/
  tid : BitVec 8
  /-- real page number -/
  rpn : BitVec 22
  /-- execute permitted -/
  ex : Bool
  /-- write permitted -/
  wr : Bool
  /-- zone select -/
  zsel : BitVec 4
  /-- write-through -/
  w : Bool
  /-- caching inhibited -/
  i : Bool
  /-- memory coherent (no effect) -/
  m : Bool
  /-- guarded -/
  g : Bool
deriving DecidableEq, Repr

/-- The three reset types (70_reset_and_hazards.md R701). -/
inductive ResetType where
  | core | chip | system
deriving DecidableEq, Repr

/-- What the host supplies before one step: time-base ticks (60_exceptions.md R660, D11), the two interrupt input levels
(R630, R636, D17), a reset request (70_reset_and_hazards.md R701 (c)) and the unconditional debug event (60 R671). -/
structure HostInput where
  ticks : Nat
  external : Bool
  critical : Bool
  reset : Option ResetType
  unconditionalDebug : Bool
deriving DecidableEq, Repr

/-- The interrupts (60_exceptions.md R603). -/
inductive Interrupt where
  | criticalInput | machineCheckInstruction | machineCheckData | dataStorage | instructionStorage | external | alignment
  | program | fpuUnavailable | systemCall | apuUnavailable | intervalTimer | fixedTimer | watchdog | dataTlbMiss
  | instructionTlbMiss | debug
deriving DecidableEq, Repr

/-- What answers in a range of MEMORY_MAP: read-only memory; a device, which answers loads and stores of the listed widths in
bytes and meets the others with a bus error; or nothing (20_memory.md R180). -/
inductive RegionKind where
  | rom
  | device (loads stores : List Nat)
  | hole
deriving DecidableEq, Repr

/-- A range of real addresses, first and last, of MEMORY_MAP. -/
structure Region where
  first : Nat
  last : Nat
  kind : RegionKind
deriving DecidableEq, Repr

/-- The state of the machine. -/
structure State where
  /-- general purpose registers (R31) -/
  gpr : Vector Word 32
  /-- program counter (R32) -/
  pc : Word
  /-- condition register (R41) -/
  cr : Word
  /-- fixed point exception register (R37) -/
  xer : Word
  /-- link register (R36) -/
  lr : Word
  /-- count register (R35) -/
  ctr : Word
  /-- machine state register (R43) -/
  msr : Word
  /-- noncritical save registers (R50) -/
  srr0 : Word
  srr1 : Word
  /-- critical save registers (R51) -/
  srr2 : Word
  srr3 : Word
  /-- SPRG0 to SPRG7 (R39) -/
  sprg : Vector Word 8
  /-- USPRG0 (R39) -/
  usprg0 : Word
  /-- exception vector prefix (R52) -/
  evpr : Word
  /-- exception syndrome (R53) -/
  esr : Word
  /-- data exception address (R54) -/
  dear : Word
  /-- time base (R42) -/
  tbu : Word
  tbl : Word
  /-- programmable interval timer (R62) and its hidden reload register (R117) -/
  pit : Word
  pitReload : Word
  /-- timer control and status (R60, R61) -/
  tcr : Word
  tsr : Word
  /-- process ID (R70) -/
  pid : Word
  /-- zone protection (R71) -/
  zpr : Word
  /-- storage attribute control registers (R72 to R76) -/
  dccr : Word
  iccr : Word
  dcwr : Word
  sgr : Word
  sler : Word
  su0r : Word
  /-- core configuration (R80) -/
  ccr0 : Word
  /-- instruction cache debug data (R81) -/
  icdbdr : Word
  /-- processor version (R40) -/
  pvr : Word
  /-- debug control, status and compare registers (R90 to R95) -/
  dbcr0 : Word
  dbcr1 : Word
  dbsr : Word
  iac1 : Word
  iac2 : Word
  iac3 : Word
  iac4 : Word
  dac1 : Word
  dac2 : Word
  dvc1 : Word
  dvc2 : Word
  /-- the reservation bit (R113) -/
  reserve : Bool
  /-- the unified TLB (R114) -/
  tlb : Vector TlbEntry 64
  /-- storage by real address, in the canonical form of `Memory.wf` (20_memory.md R120) -/
  mem : List Host.Cell
  /-- DCR_SPACE: the mapped device control register numbers (R112, D10); the host's side is `hostLog` -/
  dcrSpace : List (BitVec 10)
  /-- MEMORY_MAP: what answers where; the first range that holds an address counts, an address in none is RAM
  (20_memory.md R180, D9) -/
  memoryMap : List Region
  /-- RESET_VECTOR (00_scope.md R9, D1) -/
  resetVector : Word
  /-- FPU_PRESENT and APU_PRESENT (00_scope.md R9, D19) -/
  fpuPresent : Bool
  apuPresent : Bool
  /-- MODEL: the host's inputs for the coming steps; past the end no tick comes and no input is active (log entry 5) -/
  inputs : List HostInput
  /-- MODEL: the accesses the host has evaluated, the latest first: on them its answers depend (log entries 25 and 35) -/
  hostLog : List HostAccess
  /-- MODEL: how many free values have been drawn (log entry 6) -/
  freeCount : Nat
  /-- MODEL: the interrupt the current step has taken, if any; the debug events read it (log entry 7) -/
  entry : Option Interrupt
deriving DecidableEq, Repr

/-- Why the machine stops with a fault. -/
inductive Fault where
  /-- `step`: the wait state with MSR[EE] = MSR[CE] = 0, which no interrupt can end (60_exceptions.md R616, D16, U5:
  "the model reports this as a halt"). Safe: the hardware would wait. -/
  | halted
deriving DecidableEq, Repr

/-- Why a step has no successor in the model. -/
inductive Refusal where
  /-- An arm of `exec` with no meaning yet. Safe. -/
  | notModelled (mnemonic : String)
  /-- A TLB lookup (a fetch, a data access, tlbsx) with two matching entries (U8: refuse). Safe. -/
  | duplicateTlbEntries
  /-- `step`: an instruction fetch met a bus error with MSR[ME] = 0; ESR[MCI] would be set, then U16 refuses. Safe. -/
  | fetchBusError
  /-- `step`: external debug mode or debug wait mode with a debug event enabled: the external tool's side is not modelled
  (00_scope.md R6 (c), U6). Safe. -/
  | externalDebug
  /-- `step`: internal debug mode with an instruction address range toggle in use, which spec/ names but does not describe
  (10_state.md R90, U6). Safe. -/
  | rangeToggle
  /-- `step`: a floating-point encoding with FPU_PRESENT and MSR[FP] = 1 (U7). Safe. -/
  | fpuAttached
  /-- `step`: an auxiliary-processor encoding with APU_PRESENT and MSR[AP] = 1 (U7). Safe. -/
  | apuAttached
deriving DecidableEq, Repr

/-- The outcome of a step or a meaning. -/
abbrev Result := Host.Outcome State Fault Refusal

/-- A TLB entry with every field 0 (DESIGN CHOICE, log entry 1: reset leaves the TLB unspecified). -/
def TlbEntry.zero : TlbEntry where
  epn := 0
  size := 0
  v := false
  e := false
  u0 := false
  tid := 0
  rpn := 0
  ex := false
  wr := false
  zsel := 0
  w := false
  i := false
  m := false
  g := false

/-- The machine right after a system reset (10_state.md R119, 70_reset_and_hazards.md R702, R703). Registers R119 leaves
unspecified are 0 (DESIGN CHOICE, log entries 1 and 2); DBSR[MRR] says a system reset (log entry 3). -/
def State.reset : State where
  gpr := Vector.replicate 32 0
  pc := 0xFFFFFFFC
  cr := 0
  xer := 0
  lr := 0
  ctr := 0
  msr := 0
  srr0 := 0
  srr1 := 0
  srr2 := 0
  srr3 := 0
  sprg := Vector.replicate 8 0
  usprg0 := 0
  evpr := 0
  esr := 0
  dear := 0
  tbu := 0
  tbl := 0
  pit := 0
  pitReload := 0
  tcr := 0
  tsr := 0
  pid := 0
  zpr := 0
  dccr := 0
  iccr := 0
  dcwr := 0
  sgr := 0xFFFFFFFF
  sler := 0
  su0r := 0
  ccr0 := 0x00700000
  icdbdr := 0
  pvr := 0
  dbcr0 := 0
  dbcr1 := 0
  dbsr := 0x00000300
  iac1 := 0
  iac2 := 0
  iac3 := 0
  iac4 := 0
  dac1 := 0
  dac2 := 0
  dvc1 := 0
  dvc2 := 0
  reserve := false
  tlb := Vector.replicate 64 TlbEntry.zero
  mem := []
  dcrSpace := []
  memoryMap := []
  resetVector := 0xFFFFFFFC
  fpuPresent := false
  apuPresent := false
  inputs := []
  hostLog := []
  freeCount := 0
  entry := none

end Sys2Proof.Machine
end

