-- ==== Sys2Proof/Machine/Registers.lean ====
section
/-! DEFINITION. Reading and writing registers: the general registers, the named bits of the control registers, the
implemented bits of each register (10_state.md), and drawing a free value. -/
namespace Sys2Proof.Machine

/-! ## General registers (R31) -/

/-- GPR[r]. -/
def State.reg (s : State) (r : Reg) : Word := s.gpr[r.toNat]'r.isLt

/-- GPR[r] <- v. -/
def State.setReg (s : State) (r : Reg) (v : Word) : State := { s with gpr := s.gpr.set r.toNat v r.isLt }

/-- The instruction is done: the next one is at pc + 4 modulo 2^32 (R32, D20). -/
def State.advance (s : State) : State := { s with pc := s.pc + 4 }

/-! ## Implemented bits; the others read 0 and ignore writes (R34, D21) -/

/-- XER: SO, OV, CA, TBC (R37). -/
def xerMask : Word := 0xE000007F
/-- MSR (R43, 48_interrupt_control_tlb.md R532). -/
def msrMask : Word := 0x020EFF30
/-- SRR0 and SRR2: bits 0 to 29 (R50, R51; 30 and 31 are reserved, R34). -/
def srrMask : Word := 0xFFFFFFFC

/-- EVPR (R52). -/
def evprMask : Word := 0xFFFF0000
/-- PID (R70). -/
def pidMask : Word := 0x000000FF
/-- IAC1 to IAC4 (R93). -/
def iacMask : Word := 0xFFFFFFFC
/-- ESR (R53). -/
def esrMask : Word := 0x8FCC8000
/-- TCR (R60). -/
def tcrMask : Word := 0xFFC00000
/-- TSR (R61). -/
def tsrMask : Word := 0xFC000000
/-- CCR0 (R80). -/
def ccr0Mask : Word := 0x03F30F11
/-- DBCR0 (R90). -/
def dbcr0Mask : Word := 0xFFFFC001
/-- DBCR1 (R91). -/
def dbcr1Mask : Word := 0xFFCFFF00
/-- DBSR (R92). -/
def dbsrMask : Word := 0xFFFC0300

/-! ## MSR bits (R43) -/

/-- MSR[AP]: auxiliary processor available. -/
def State.apBit (s : State) : Bool := bitOf s.msr 6
/-- MSR[WE]: wait state. -/
def State.weBit (s : State) : Bool := bitOf s.msr 13
/-- MSR[CE]: critical interrupt enable. -/
def State.ceBit (s : State) : Bool := bitOf s.msr 14
/-- MSR[EE]: external interrupt enable. -/
def State.eeBit (s : State) : Bool := bitOf s.msr 16
/-- MSR[PR]: problem state. -/
def State.prBit (s : State) : Bool := bitOf s.msr 17
/-- MSR[FP]: floating point available. -/
def State.fpBit (s : State) : Bool := bitOf s.msr 18
/-- MSR[ME]: machine check enable. -/
def State.meBit (s : State) : Bool := bitOf s.msr 19
/-- MSR[DWE]: debug wait enable. -/
def State.dweBit (s : State) : Bool := bitOf s.msr 21
/-- MSR[DE]: debug interrupt enable. -/
def State.deBit (s : State) : Bool := bitOf s.msr 22
/-- MSR[IR]: instruction relocate. -/
def State.irBit (s : State) : Bool := bitOf s.msr 26
/-- MSR[DR]: data relocate. -/
def State.drBit (s : State) : Bool := bitOf s.msr 27

/-! ## XER (R37) and PID (R70) -/

/-- XER[SO]. -/
def xerSo (x : Word) : Bool := bitOf x 0
/-- XER[OV]. -/
def xerOv (x : Word) : Bool := bitOf x 1
/-- XER[CA]. -/
def xerCa (x : Word) : Bool := bitOf x 2
/-- XER[TBC]: the byte count of lswx and stswx. -/
def xerTbc (x : Word) : Nat := (x.extractLsb' 0 7).toNat
/-- PID[24:31]. -/
def State.pid8 (s : State) : BitVec 8 := s.pid.extractLsb' 0 8

/-! ## Free values (93_implementation_defined.md section 1: `any value`) -/

/-- The k-th free value from here on. -/
def State.free (s : State) (k : Nat) : Word := Config.freeWord (s.freeCount + k)

/-- `n` free values have been drawn. -/
def State.drawn (s : State) (n : Nat) : State := { s with freeCount := s.freeCount + n }

end Sys2Proof.Machine
end

