-- ==== Sys2Proof/Machine/Flags.lean ====
section
/-! DEFINITION. Flag computations: CR fields, record_cr0, set_ov, carry, ovf_add and the compares
(00_scope.md R12 to R14, 44_logical_compare.md R410, 43_mac_halfword.md R371). -/
namespace Sys2Proof.Machine

/-! ## CR fields and bits (10_state.md R41) -/

/-- The place of CR field k: its lowest bit's weight. -/
def crShift (k : BitVec 3) : Nat := 28 - 4 * k.toNat

/-- CR field k. -/
def crField (cr : Word) (k : BitVec 3) : BitVec 4 := cr.extractLsb' (crShift k) 4

/-- CR with field k replaced. -/
def withCrField (cr : Word) (k : BitVec 3) (v : BitVec 4) : Word :=
  (cr &&& ~~~(0xF#32 <<< crShift k)) ||| (v.setWidth 32 <<< crShift k)

/-- CR bit i, 0 to 31. -/
def crBit (cr : Word) (i : BitVec 5) : Bool := bitOf cr i.toNat

/-- CR with bit i replaced. -/
def withCrBit (cr : Word) (i : BitVec 5) (b : Bool) : Word := withBit cr i.toNat b

/-- Four flags in the order LT, GT, EQ, SO. -/
def fourBits (lt gt eq so : Bool) : BitVec 4 := BitVec.ofBool lt ++ BitVec.ofBool gt ++ BitVec.ofBool eq ++ BitVec.ofBool so

/-! ## XER -/

/-- set_ov: XER[OV] <- o, and XER[SO] is set if o is (R13). -/
def withOv (x : Word) (o : Bool) : Word := withBit (if o then withBit x 0 true else x) 1 o

/-- XER[CA] <- c. -/
def withCa (x : Word) (c : Bool) : Word := withBit x 2 c

/-- XER after an instruction that writes CA (`ca`) and OV and SO (`ov`), each only if given. -/
def xerAfter (x : Word) (ca ov : Option Bool) : Word :=
  let x := match ca with
    | some c => withCa x c
    | none => x
  match ov with
  | some o => withOv x o
  | none => x

/-! ## CR0 -/

/-- The CR0 that record_cr0 writes for the result r, with XER as the instruction leaves it (R12). -/
def recordBits (r xer : Word) : BitVec 4 := fourBits (r.slt 0) (BitVec.slt 0 r) (r == 0) (xerSo xer)

/-- CR after a form with record bit rc, result r and final XER (R12). -/
def crAfter (cr : Word) (rc : Bool) (r xer : Word) : Word := if rc then withCrField cr 0 (recordBits r xer) else cr

/-! ## Carry, overflow and comparison -/

/-- carry(a, b, c): the unsigned sum exceeds 2^32 - 1 (R14). -/
def carry (a b : Word) (c : Bool) : Bool := decide (2 ^ 32 ≤ a.toNat + b.toNat + bitNat c)

/-- ovf_add(a, b, r): a and b have one sign and r the other (R14; also 43_mac_halfword.md R371, signed forms). -/
def ovfAdd (a b r : Word) : Bool := a.msb == b.msb && a.msb != r.msb

/-- The compare field of a signed comparison (44_logical_compare.md R428). -/
def compareSigned (a b xer : Word) : BitVec 4 := fourBits (a.slt b) (b.slt a) (a == b) (xerSo xer)

/-- The compare field of an unsigned comparison (44_logical_compare.md R430). -/
def compareUnsigned (a b xer : Word) : BitVec 4 := fourBits (a.ult b) (b.ult a) (a == b) (xerSo xer)

/-- The trap condition: TO[0] signed less, TO[1] signed greater, TO[2] equal, TO[3] unsigned less, TO[4] unsigned
greater (49_processor_management.md R575). -/
def trapCondition (tcond : BitVec 5) (a b : Word) : Bool :=
  (tcond.getMsbD 0 && a.slt b) || (tcond.getMsbD 1 && b.slt a) || (tcond.getMsbD 2 && a == b)
    || (tcond.getMsbD 3 && a.ult b) || (tcond.getMsbD 4 && b.ult a)

end Sys2Proof.Machine
end

