-- ==== Sys2Proof/Machine/Operands.lean ====
section
/-! DEFINITION. Operand forms: RA0, effective addresses, halfwords of a register, branch displacements. -/
namespace Sys2Proof.Machine

/-- RA0: 0 if the RA field is 0, else GPR[RA] (00_scope.md R11, 10_state.md R31). -/
def State.ra0 (s : State) (ra : Reg) : Word := if ra = 0 then 0 else s.reg ra

/-- The effective address of a D form: RA0 + sext_16(D) (40_storage_reference.md R260). -/
def State.eaD (s : State) (ra : Reg) (d : BitVec 16) : Word := s.ra0 ra + sext16 d

/-- The effective address of an X form: RA0 + GPR[RB] (40_storage_reference.md R260). -/
def State.eaX (s : State) (ra rb : Reg) : Word := s.ra0 ra + s.reg rb

/-- The addresses of an operand of n bytes at ea, modulo 2^32 (40_storage_reference.md R260, D20). -/
def byteAddresses (ea : Word) (n : Nat) : List Word := (List.range n).map fun i => ea + BitVec.ofNat 32 i

/-- The high-order halfword, bits 0:15 (43_mac_halfword.md R370). -/
def highHalf (x : Word) : BitVec 16 := x.extractLsb' 16 16

/-- The low-order halfword, bits 16:31 (43_mac_halfword.md R370). -/
def lowHalf (x : Word) : BitVec 16 := x.extractLsb' 0 16

/-- The exact signed product of two halfwords (43_mac_halfword.md R372). -/
def signedProduct (x y : BitVec 16) : Word := x.signExtend 32 * y.signExtend 32

/-- The exact unsigned product of two halfwords (43_mac_halfword.md R374). -/
def unsignedProduct (x y : BitVec 16) : Word := x.setWidth 32 * y.setWidth 32

/-- The displacement of b: sext(LI || 0b00) (45_branch_cr_logical.md R450). -/
def displacementI (li : BitVec 24) : Word := (li ++ 0#2).signExtend 32

/-- The displacement of bc: sext(BD || 0b00) (45_branch_cr_logical.md R450). -/
def displacementB (bd : BitVec 14) : Word := (bd ++ 0#2).signExtend 32

/-- An address with its two low-order bits 0 (10_state.md R32). -/
def wordAligned (a : Word) : Word := a &&& 0xFFFFFFFC

/-- Whether an address is no multiple of 4 (20_memory.md R132). -/
def misaligned (ea : Word) : Bool := ea.extractLsb' 0 2 != 0

end Sys2Proof.Machine
end

