-- ==== Sys2Proof/Machine/Ops.lean ====
section
/-! DEFINITION. The shared operations: storage, address translation and protection, taking an interrupt and returning
from one, data accesses, and writing results (20_memory.md, 60_exceptions.md). -/
namespace Sys2Proof.Machine

/-! ## Storage: one byte per real address (20_memory.md R120) -/

/-- What an address nothing has written reads as (DESIGN CHOICE, log entry 4; unsafe: the spec gives no value). -/
def Memory.unlisted : Byte := 0

/-- The byte at an address. -/
def Memory.read : List Host.Cell → Nat → Byte
  | [], _ => Memory.unlisted
  | (k, v) :: m, a => if k = a then v else Memory.read m a

/-- Storage with the byte at an address replaced; writing the unlisted value removes the entry. -/
def Memory.write : List Host.Cell → Nat → Byte → List Host.Cell
  | [], a, b => if b = Memory.unlisted then [] else [(a, b)]
  | (k, v) :: m, a, b =>
    if a < k then (if b = Memory.unlisted then (k, v) :: m else (a, b) :: (k, v) :: m)
    else if a = k then (if b = Memory.unlisted then m else (a, b) :: m)
    else (k, v) :: Memory.write m a b

/-- The canonical form from address `lo` on: addresses strictly rising, below 2^32, no entry at the unlisted value. -/
def Memory.wfFrom (lo : Nat) : List Host.Cell → Bool
  | [] => true
  | (k, v) :: m => decide (lo ≤ k) && decide (k < 2 ^ 32) && decide (v ≠ Memory.unlisted) && Memory.wfFrom (k + 1) m

/-- The canonical form of storage. -/
def Memory.wf (m : List Host.Cell) : Bool := Memory.wfFrom 0 m

/-! ## The memory map (MEMORY_MAP, 20_memory.md R180, D9) -/

/-- What answers at a real address; none is RAM. -/
def State.regionKind (s : State) (ra : Word) : Option RegionKind :=
  (s.memoryMap.find? fun r => decide (r.first ≤ ra.toNat) && decide (ra.toNat ≤ r.last)).map (·.kind)

/-- Whether nothing answers at a real address. -/
def State.isHole (s : State) (ra : Word) : Bool := s.regionKind ra == some .hole

/-- Whether a device answers at a real address. -/
def State.isDevice (s : State) (ra : Word) : Bool :=
  match s.regionKind ra with
  | some (.device _ _) => true
  | some .rom | some .hole | none => false

/-- Whether a device at a real address does not answer an access of n bytes (R180: "the response of each device to each access
width"). -/
def State.refusesWidth (s : State) (store : Bool) (n : Nat) (ra : Word) : Bool :=
  match s.regionKind ra with
  | some (.device loads stores) => !(if store then stores else loads).contains n
  | some .rom | some .hole | none => false

/-- Whether the chip meets a single access to these real addresses with a bus error: nothing answers at one of them, or the
device at the first does not answer this width. -/
def State.busError (s : State) (store : Bool) (ras : List Word) : Bool :=
  ras.any s.isHole || ras.head?.any (s.refusesWidth store ras.length)

/-- Whether a store at a real address writes storage: RAM, not read-only memory, which drops it (log entry 35). -/
def State.isRam (s : State) (ra : Word) : Bool := s.regionKind ra == none

/-! ## Taking an interrupt (60_exceptions.md R603, R610 to R614) -/

/-- The vector offset (R603, D4). -/
def Interrupt.offset : Interrupt → Word
  | .criticalInput => 0x0100
  | .machineCheckInstruction => 0x0200
  | .machineCheckData => 0x0200
  | .dataStorage => 0x0300
  | .instructionStorage => 0x0400
  | .external => 0x0500
  | .alignment => 0x0600
  | .program => 0x0700
  | .fpuUnavailable => 0x0800
  | .systemCall => 0x0C00
  | .apuUnavailable => 0x0F20
  | .intervalTimer => 0x1000
  | .fixedTimer => 0x1010
  | .watchdog => 0x1020
  | .dataTlbMiss => 0x1100
  | .instructionTlbMiss => 0x1200
  | .debug => 0x2000

/-- The critical interrupts, which save into SRR2 and SRR3 (R612). -/
def Interrupt.critical : Interrupt → Bool
  | .criticalInput | .machineCheckInstruction | .machineCheckData | .watchdog | .debug => true
  | .dataStorage | .instructionStorage | .external | .alignment | .program | .fpuUnavailable | .systemCall
  | .apuUnavailable | .intervalTimer | .fixedTimer | .dataTlbMiss | .instructionTlbMiss => false

/-- The MSR bits an interrupt keeps (R614, D24): CE, ME, DE; or ME; or none for a machine check. -/
def Interrupt.msrKept : Interrupt → Word
  | .machineCheckInstruction | .machineCheckData => 0
  | .criticalInput | .watchdog | .debug => 0x00001000
  | .dataStorage | .instructionStorage | .external | .alignment | .program | .fpuUnavailable | .systemCall
  | .apuUnavailable | .intervalTimer | .fixedTimer | .dataTlbMiss | .instructionTlbMiss => 0x00021200

/-- The address of an interrupt's handler: EVPR[0:15] || offset (R611). -/
def State.vector (s : State) (k : Interrupt) : Word := (s.evpr &&& 0xFFFF0000) ||| k.offset

/-- Take an interrupt: save the address and the MSR in the pair of its class, set the MSR, go to the vector (R610 to
R614). The syndrome (ESR, DEAR) is written before, by the operation of each interrupt below. -/
def takeInterrupt (k : Interrupt) (saved : Word) (s : State) : State :=
  if k.critical then
    { s with srr2 := wordAligned saved, srr3 := s.msr, msr := s.msr &&& k.msrKept, pc := s.vector k, entry := some k }
  else
    { s with srr0 := wordAligned saved, srr1 := s.msr, msr := s.msr &&& k.msrKept, pc := s.vector k, entry := some k }

/-- Return from an interrupt: the MSR's implemented bits and the pc come back from a save pair (R617). -/
def returnFromInterrupt (address status : Word) (s : State) : State :=
  { s with msr := status &&& msrMask, pc := wordAligned address }

/-- The ESR a synchronous interrupt writes: its own bits, MCI as it was, the others 0 (10_state.md R53). -/
def syndrome (esr bits : Word) : Word := (esr &&& bitMask 0) ||| bits

/-- The causes of a Program interrupt the core itself can have (R640). -/
inductive ProgramCause where
  | illegal | privileged | trap
deriving DecidableEq, Repr

/-- ESR[PIL], ESR[PPR], ESR[PTR] (R640, 10_state.md R53). -/
def ProgramCause.bits : ProgramCause → Word
  | .illegal => bitMask 4
  | .privileged => bitMask 5
  | .trap => bitMask 6

/-- Program interrupt (R640). -/
def programInterrupt (c : ProgramCause) (s : State) : State :=
  takeInterrupt .program s.pc { s with esr := syndrome s.esr c.bits }

/-- System Call interrupt (R643): the saved address is that of the next instruction. -/
def systemCallInterrupt (s : State) : State := takeInterrupt .systemCall (s.pc + 4) s

/-- Data TLB Miss interrupt (R648): DEAR, ESR[DST] for a store. -/
def dataTlbMissInterrupt (ea : Word) (store : Bool) (s : State) : State :=
  takeInterrupt .dataTlbMiss s.pc { s with dear := ea, esr := syndrome s.esr (withBit 0 8 store) }

/-- Data Storage interrupt (R634): DEAR, ESR[DST, DIZ, U0F]. -/
def dataStorageInterrupt (ea : Word) (store zone u0 : Bool) (s : State) : State :=
  takeInterrupt .dataStorage s.pc
    { s with dear := ea, esr := syndrome s.esr (withBit (withBit (withBit 0 8 store) 9 zone) 16 u0) }

/-- Alignment interrupt (R639): DEAR; ESR is unchanged. -/
def alignmentInterrupt (ea : Word) (s : State) : State := takeInterrupt .alignment s.pc { s with dear := ea }

/-- Machine Check, data side, taken precisely (R632, D9): the saved address is that of the successor. -/
def dataMachineCheck (s : State) : State := takeInterrupt .machineCheckData (s.pc + 4) s

/-- Machine Check, instruction side (R631): ESR[MCI] is set. -/
def instructionMachineCheck (s : State) : State :=
  takeInterrupt .machineCheckInstruction s.pc { s with esr := s.esr ||| bitMask 0 }

/-- Instruction Storage interrupt (R635): ESR[DIZ] for a zone fault. -/
def instructionStorageInterrupt (zone : Bool) (s : State) : State :=
  takeInterrupt .instructionStorage s.pc { s with esr := syndrome s.esr (withBit 0 9 zone) }

/-- Instruction TLB Miss interrupt (R649). -/
def instructionTlbMissInterrupt (s : State) : State := takeInterrupt .instructionTlbMiss s.pc s

/-- A privileged instruction: Program with ESR[PPR] in problem state, else the effect (R621, R640). -/
def privileged (s : State) (effect : Result) : Result :=
  if s.prBit then .next (programInterrupt .privileged s) else effect

/-! ## Address translation and protection (20_memory.md R140 to R155) -/

/-- The storage attributes of an access (R153); M has no effect. -/
structure Attributes where
  w : Bool
  i : Bool
  g : Bool
  e : Bool
  u0 : Bool
deriving DecidableEq, Repr

/-- The 128 MB region number of a real address: ea[0:4] (R153). -/
def region (ea : Word) : Nat := (ea.extractLsb' 27 5).toNat

/-- The attributes of untranslated data (R153); DCCR has the opposite polarity of I. -/
def State.realDataAttributes (s : State) (ea : Word) : Attributes where
  w := bitOf s.dcwr (region ea)
  i := !bitOf s.dccr (region ea)
  g := bitOf s.sgr (region ea)
  e := bitOf s.sler (region ea)
  u0 := bitOf s.su0r (region ea)

/-- The attributes of an untranslated fetch (R153). -/
def State.realFetchAttributes (s : State) (ea : Word) : Attributes where
  w := false
  i := !bitOf s.iccr (region ea)
  g := bitOf s.sgr (region ea)
  e := bitOf s.sler (region ea)
  u0 := bitOf s.su0r (region ea)

/-- The attributes a TLB entry gives (R153). -/
def TlbEntry.attributes (t : TlbEntry) : Attributes where
  w := t.w
  i := t.i
  g := t.g
  e := t.e
  u0 := t.u0

/-- How many low-order bits of EPN and RPN the page size leaves out: 22 - n (R142). -/
def TlbEntry.ignored (t : TlbEntry) : Nat := 2 * t.size.toNat

/-- Whether a valid entry matches an address and a PID (R143). -/
def TlbEntry.covers (t : TlbEntry) (pid : BitVec 8) (ea : Word) : Bool :=
  t.v && (t.epn >>> t.ignored == (ea.extractLsb' 10 22) >>> t.ignored) && (t.tid == 0 || t.tid == pid)

/-- The bits of an address inside an entry's page: n to 31 (R142). -/
def TlbEntry.offsetMask (t : TlbEntry) : Word := ~~~(BitVec.allOnes 32 <<< (10 + t.ignored))

/-- The real address: RPN[0:n-1] || ea[n:31] (R143). -/
def TlbEntry.realAddress (t : TlbEntry) (ea : Word) : Word :=
  ((t.rpn ++ 0#10) &&& ~~~t.offsetMask) ||| (ea &&& t.offsetMask)

/-- The matching entries with their indexes, from index `k` on. -/
def matchingEntries (pid : BitVec 8) (ea : Word) : Nat → List TlbEntry → List (Nat × TlbEntry)
  | _, [] => []
  | k, t :: rest =>
    if t.covers pid ea then (k, t) :: matchingEntries pid ea (k + 1) rest else matchingEntries pid ea (k + 1) rest

/-- What a search of the UTLB finds (R143 to R145, U8). -/
inductive Lookup where
  | miss
  | hit (index : Nat) (entry : TlbEntry)
  | duplicate
deriving DecidableEq, Repr

/-- Search the UTLB with the current PID. -/
def State.lookup (s : State) (ea : Word) : Lookup :=
  match matchingEntries s.pid8 ea 0 s.tlb.toList with
  | [] => .miss
  | [(i, t)] => .hit i t
  | _ :: _ :: _ => .duplicate

/-- The ZPR field of an entry's zone (R148). -/
def State.zoneField (s : State) (t : TlbEntry) : BitVec 2 := s.zpr.extractLsb' (30 - 2 * t.zsel.toNat) 2

/-- Zone 00 in problem state: no access at all (R148). -/
def State.zoneDenies (s : State) (t : TlbEntry) : Bool := s.prBit && s.zoneField t == 0

/-- The zone overrides EX and WR: 11, or 10 in supervisor state (R148). -/
def State.zoneOverrides (s : State) (t : TlbEntry) : Bool :=
  s.zoneField t == 3 || (!s.prBit && s.zoneField t == 2)

/-- What translating one byte of a data access gives (R150). -/
inductive DataTranslation where
  | real (ra : Word) (attributes : Attributes)
  | miss
  | denied (zone u0 : Bool)
  | duplicate
deriving DecidableEq, Repr

/-- The U0 fault: a store to U0 storage with CCR0[U0XE] (R155). -/
def State.u0Fault (s : State) (store : Bool) (a : Attributes) : Bool := store && bitOf s.ccr0 14 && a.u0

/-- Translate and check one byte of a data access: TLB match, zone, WR, U0 (R150). -/
def State.translateData (s : State) (store : Bool) (ea : Word) : DataTranslation :=
  if s.drBit then
    match s.lookup ea with
    | .miss => .miss
    | .duplicate => .duplicate
    | .hit _ t =>
      if s.zoneDenies t then .denied true false
      else if store && !(t.wr || s.zoneOverrides t) then .denied false false
      else if s.u0Fault store t.attributes then .denied false true
      else .real (t.realAddress ea) t.attributes
  else if s.u0Fault store (s.realDataAttributes ea) then .denied false true
  else .real ea (s.realDataAttributes ea)

/-- The real address of a byte whose checks pass. -/
def State.realData (s : State) (store : Bool) (ea : Word) : Word :=
  match s.translateData store ea with
  | .real ra _ => ra
  | .miss | .denied _ _ | .duplicate => ea

/-- Whether the region of an operand's first byte is little endian (R124, R130, D8). -/
def State.littleData (s : State) (store : Bool) (ea : Word) : Bool :=
  match s.translateData store ea with
  | .real _ a => a.e
  | .miss | .denied _ _ | .duplicate => false

/-! ## The checks of a data access (R150): nothing, an interrupt, or a refusal -/

/-- What stops the translation of one byte, reported at effective address `dear`. -/
def translationStopAt (s : State) (store : Bool) (dear ea : Word) : Option Result :=
  match s.translateData store ea with
  | .real _ _ => none
  | .miss => some (.next (dataTlbMissInterrupt dear store s))
  | .denied zone u0 => some (.next (dataStorageInterrupt dear store zone u0 s))
  | .duplicate => some (.refused .duplicateTlbEntries)

/-- The first byte, in order of access, that translation or protection stops (60_exceptions.md R619). -/
def translationStop (s : State) (store : Bool) : List Word → Option Result
  | [] => none
  | ea :: rest =>
    match translationStopAt s store ea ea with
    | some r => some r
    | none => translationStop s store rest

/-- Whether a single access, by address and width, meets a bus error. -/
def State.partFails (s : State) (store : Bool) (part : Word × Nat) : Bool :=
  s.busError store ((byteAddresses part.1 part.2).map (s.realData store))

/-- A data machine check if MSR[ME] = 1 and a single access meets a bus error (60_exceptions.md R632, D9). -/
def busStop (s : State) (store : Bool) (parts : List (Word × Nat)) : Option Result :=
  if s.meBit && parts.any (s.partFails store) then some (.next (dataMachineCheck s)) else none

/-- What stops a data access to these bytes by these single accesses: translation and protection, then the bus (R150, D15). -/
def dataStop (s : State) (store : Bool) (eas : List Word) (parts : List (Word × Nat)) : Option Result :=
  match translationStop s store eas with
  | some r => some r
  | none => busStop s store parts

/-- As `dataStop` with the alignment check of lwarx, stwcx. and dcread between (R132, R150). -/
def alignmentStop (s : State) (store : Bool) (ea : Word) (eas : List Word) : Option Result :=
  match translationStop s store eas with
  | some r => some r
  | none => if misaligned ea then some (.next (alignmentInterrupt ea s)) else none

/-- Run `effect` unless the access is stopped. -/
def unlessStopped (stop : Option Result) (effect : Result) : Result :=
  match stop with
  | some r => r
  | none => effect

/-! ## Reading and writing operands (R130) -/

/-- The single accesses of bytes one by one. -/
def singleBytes (eas : List Word) : List (Word × Nat) := eas.map fun ea => (ea, 1)

/-- The single accesses of an operand, address and width: one if it is naturally aligned, else its bytes in increasing
address order (20_memory.md R133, D8). -/
def operandParts (ea : Word) (n : Nat) : List (Word × Nat) :=
  if ea.toNat % n = 0 then [(ea, n)] else singleBytes (byteAddresses ea n)

/-- Whether a single access is a device's, which answers it: that of its first byte (log entry 35). -/
def State.deviceAnswers (s : State) (store : Bool) (part : Word × Nat) : Bool :=
  s.isDevice (s.realData store part.1) && !s.partFails store part

/-- The history after one single load: one that a device answers is appended (D9). -/
def State.logLoad (s : State) (log : List HostAccess) (part : Word × Nat) : List HostAccess :=
  if s.deviceAnswers false part then .load (s.realData false part.1) part.2 :: log else log

/-- The history after single loads in order. -/
def State.logLoads (s : State) (log : List HostAccess) (parts : List (Word × Nat)) : List HostAccess :=
  parts.foldl s.logLoad log

/-- Byte i of a single load of n bytes, after the history `log`: the device's answer if a device answers at its first
byte, else storage (DESIGN CHOICE for an aligned load over ranges of different kinds, log entry 35; unsafe); of a load that met
a bus error with MSR[ME] = 0 the k-th free value (U11). -/
def State.loadPart (s : State) (log : List HostAccess) (k : Nat) (ea : Word) (n i : Nat) : Byte :=
  if s.partFails false (ea, n) then (s.free k).setWidth 8
  else if s.isDevice (s.realData false ea) then Config.deviceByte log (s.realData false ea) n i
  else Memory.read s.mem (s.realData false (ea + BitVec.ofNat 32 i)).toNat

/-- Byte i of an operand of n bytes, after the history `log`, from its single accesses (R133). -/
def State.loadByte (s : State) (log : List HostAccess) (k : Nat) (ea : Word) (n i : Nat) : Byte :=
  if ea.toNat % n = 0 then s.loadPart log k ea n i
  else s.loadPart (s.logLoads log (singleBytes (byteAddresses ea i))) k (ea + BitVec.ofNat 32 i) 1 0

/-- MemRead(ea, n) after the history `log`: the n bytes composed in the region's order (R130); its k-th free value on is for
bus errors. -/
def State.memRead (s : State) (log : List HostAccess) (k : Nat) (ea : Word) (n : Nat) : Word :=
  let bytes := (List.range n).map fun i => s.loadByte log (k + i) ea n i
  wordOfByteList (if s.littleData false ea then bytes.reverse else bytes)

/-- The machine after single loads: the devices have seen them. -/
def State.afterLoads (s : State) (parts : List (Word × Nat)) : State := { s with hostLog := s.logLoads s.hostLog parts }

/-- How many free values a load of n bytes by these single accesses draws: none if no bus error is met (U11). -/
def State.loadDraws (s : State) (n : Nat) (parts : List (Word × Nat)) : Nat := if parts.any (s.partFails false) then n else 0

/-- Storage after bytes stored at effective addresses: those RAM answers for. -/
def State.storeBytes (s : State) (pairs : List (Word × Byte)) : List Host.Cell :=
  pairs.foldl (fun m p =>
    let ra := s.realData true p.1
    if s.isRam ra then Memory.write m ra.toNat p.2 else m) s.mem

/-- The bytes of a single store that go to storage: none if a device answers at its first byte; past a bus error with
MSR[ME] = 0 the store is dropped (U11). DESIGN CHOICE (log entry 35; unsafe): of an aligned store over ranges of different
kinds that starts in no device, each byte goes where RAM answers for it, and the others are dropped. -/
def State.storageBytes (s : State) (part : Word × List Byte) : List (Word × Byte) :=
  if s.partFails true (part.1, part.2.length) || s.isDevice (s.realData true part.1) then []
  else (byteAddresses part.1 part.2.length).zip part.2

/-- The history after one single store: one that a device answers is appended (D9). -/
def State.logStore (s : State) (log : List HostAccess) (part : Word × List Byte) : List HostAccess :=
  if s.deviceAnswers true (part.1, part.2.length) then .store (s.realData true part.1) part.2 :: log else log

/-- The machine after single stores in order, each with its bytes: storage and the devices have taken them. -/
def State.afterStores (s : State) (parts : List (Word × List Byte)) : State :=
  { s with mem := s.storeBytes (parts.flatMap s.storageBytes), hostLog := parts.foldl s.logStore s.hostLog }

/-- Single stores of one byte each. -/
def byteParts (pairs : List (Word × Byte)) : List (Word × List Byte) := pairs.map fun p => (p.1, [p.2])

/-- The n low-order bytes of v as they stand in storage, lowest address first (R130). -/
def State.orderedBytes (s : State) (ea : Word) (n : Nat) (v : Word) : List Byte :=
  if s.littleData true ea then (byteListOfWord n v).reverse else byteListOfWord n v

/-- The bytes of an operand with their addresses. -/
def State.operandBytes (s : State) (ea : Word) (n : Nat) (v : Word) : List (Word × Byte) :=
  (byteAddresses ea n).zip (s.orderedBytes ea n v)

/-- The single stores of an operand (20_memory.md R133, D8). -/
def State.operandStores (s : State) (ea : Word) (n : Nat) (v : Word) : List (Word × List Byte) :=
  if ea.toNat % n = 0 then [(ea, s.orderedBytes ea n v)] else byteParts (s.operandBytes ea n v)

/-- MemWrite(ea, n, v) (R130). -/
def State.memWrite (s : State) (ea : Word) (n : Nat) (v : Word) : State := s.afterStores (s.operandStores ea n v)

/-! ## Writing results -/

/-- CR0 becomes a free value if reserved bit 31 was 1 (30_encoding.md R246 (b), U1). -/
def State.markCr0 (s : State) (nr : Bool) : State :=
  if nr then { s with cr := withCrField s.cr 0 ((s.free 0).setWidth 4), freeCount := s.freeCount + 1 } else s

/-- The end of an instruction without a record bit: bit 31's effect, then pc + 4. -/
def State.finish (s : State) (nr : Bool) : State := (s.markCr0 nr).advance

/-- Registers that become free values, in order: those an invalid form leaves unspecified (30_encoding.md R246 (c), U2). -/
def State.freeRegs (s : State) : List Reg → State
  | [] => s
  | r :: rest => State.freeRegs ((s.setReg r (s.free 0)).drawn 1) rest

/-- Write a result: the target register, XER[CA] and XER[OV, SO] as given, CR0 if rc, pc + 4
(00_scope.md R12 to R14, 42_arithmetic.md R330). -/
def State.writeResult (s : State) (rt : Reg) (r : Word) (ca ov : Option Bool) (rc : Bool) : State :=
  let xer := xerAfter s.xer ca ov
  { s with
    gpr := s.gpr.set rt.toNat r rt.isLt
    xer := xer
    cr := crAfter s.cr rc r xer
    pc := s.pc + 4 }

/-- The overflow an OE form reports. -/
def overflowIf (oe o : Bool) : Option Bool := if oe then some o else none

end Sys2Proof.Machine
end

