-- ==== Sys2Proof/Machine/Branch.lean ====
section
/-! DEFINITION. The branch and condition register logical instructions (45_branch_cr_logical.md). -/
namespace Sys2Proof.Machine

/-! ## Shared operations -/

/-- CTR after the decrement that BO[2] = 0 asks for (R451). -/
def counterAfter (bo : BitVec 5) (ctr : Word) : Word := if bo.getMsbD 2 then ctr else ctr - 1

/-- ctr_ok and cond_ok: whether the branch is taken, with the decremented CTR (R451). -/
def branchTaken (bo bi : BitVec 5) (ctrNew cr : Word) : Bool :=
  (bo.getMsbD 2 || ((ctrNew == 0) == bo.getMsbD 3)) && (bo.getMsbD 0 || (crBit cr bi == bo.getMsbD 1))

/-- LR <- CIA + 4 if lk (R450). -/
def State.linkAfter (s : State) (lk : Bool) : Word := if lk then s.pc + 4 else s.lr

/-- A conditional branch to `target`, given CTR after the decrement (R455). -/
def branchForm (bo bi : BitVec 5) (target : Word → Word) (lk : Bool) (s : State) : Result :=
  let ctr := counterAfter bo s.ctr
  .next { s with
    ctr := ctr
    lr := s.linkAfter lk
    pc := if branchTaken bo bi ctr s.cr then target ctr else s.pc + 4 }

/-- One CR bit written with a function of two (R458 to R465). -/
def crLogicalForm (bt : BitVec 5) (b nr : Bool) (s : State) : Result := .next ({ s with cr := withCrBit s.cr bt b }.finish nr)

/-! ## Branches -/

/-- b (R454). -/
def execB (li : BitVec 24) (aa lk : Bool) (s : State) : Result :=
  .next { s with lr := s.linkAfter lk, pc := (if aa then 0 else s.pc) + displacementI li }

/-- bc (R455). -/
def execBc (bo bi : BitVec 5) (bd : BitVec 14) (aa lk : Bool) (s : State) : Result :=
  branchForm bo bi (fun _ => (if aa then 0 else s.pc) + displacementB bd) lk s

/-- bcctr (R456): the target is CTR after any decrement. With BO[2] = 0, an invalid form, CTR is a free value afterwards
(30_encoding.md R246 (c), D7, U2). -/
def execBcctr (bo bi : BitVec 5) (lk : Bool) (s : State) : Result :=
  if bo.getMsbD 2 then branchForm bo bi wordAligned lk s
  else .next { s with
    ctr := s.free 0
    lr := s.linkAfter lk
    pc := if branchTaken bo bi (s.ctr - 1) s.cr then wordAligned (s.ctr - 1) else s.pc + 4
    freeCount := s.freeCount + 1 }

/-- bclr (R457): the target is LR before the link update. -/
def execBclr (bo bi : BitVec 5) (lk : Bool) (s : State) : Result := branchForm bo bi (fun _ => wordAligned s.lr) lk s

/-! ## Condition register logical -/

/-- crand (R458). -/
def execCrand (bt ba bb : BitVec 5) (nr : Bool) (s : State) : Result :=
  crLogicalForm bt (crBit s.cr ba && crBit s.cr bb) nr s

/-- crandc (R459). -/
def execCrandc (bt ba bb : BitVec 5) (nr : Bool) (s : State) : Result :=
  crLogicalForm bt (crBit s.cr ba && !crBit s.cr bb) nr s

/-- creqv (R460). -/
def execCreqv (bt ba bb : BitVec 5) (nr : Bool) (s : State) : Result :=
  crLogicalForm bt (!(crBit s.cr ba ^^ crBit s.cr bb)) nr s

/-- crnand (R461). -/
def execCrnand (bt ba bb : BitVec 5) (nr : Bool) (s : State) : Result :=
  crLogicalForm bt (!(crBit s.cr ba && crBit s.cr bb)) nr s

/-- crnor (R462). -/
def execCrnor (bt ba bb : BitVec 5) (nr : Bool) (s : State) : Result :=
  crLogicalForm bt (!(crBit s.cr ba || crBit s.cr bb)) nr s

/-- cror (R463). -/
def execCror (bt ba bb : BitVec 5) (nr : Bool) (s : State) : Result :=
  crLogicalForm bt (crBit s.cr ba || crBit s.cr bb) nr s

/-- crorc (R464). -/
def execCrorc (bt ba bb : BitVec 5) (nr : Bool) (s : State) : Result :=
  crLogicalForm bt (crBit s.cr ba || !crBit s.cr bb) nr s

/-- crxor (R465). -/
def execCrxor (bt ba bb : BitVec 5) (nr : Bool) (s : State) : Result :=
  crLogicalForm bt (crBit s.cr ba ^^ crBit s.cr bb) nr s

/-- mcrf (R466). -/
def execMcrf (bf bfa : BitVec 3) (nr : Bool) (s : State) : Result :=
  .next ({ s with cr := withCrField s.cr bf (crField s.cr bfa) }.finish nr)

end Sys2Proof.Machine
end

