-- ==== Sys2Proof/Machine/Cache.lean ====
section
/-! DEFINITION. The cache management instructions (47_cache_management.md). The model has no caches (D12), so apart from
dcbz, dcread and icread they make their checks and change nothing (R500 (d), 20_memory.md R176). -/
namespace Sys2Proof.Machine

/-! ## Shared operations -/

/-- A cache operation that only translates its operand, as a load or a store (R149). -/
def cacheForm (store : Bool) (ea : Word) (nr : Bool) (s : State) : Result :=
  unlessStopped (translationStopAt s store ea ea) (.next (s.finish nr))

/-- A touch or allocate hint: no operation and no interrupt (R501, R505). -/
def cacheHint (nr : Bool) (s : State) : Result := .next (s.finish nr)

/-- The first byte of the 32-byte block of an address (R500, R507). -/
def blockBase (ea : Word) : Word := ea &&& 0xFFFFFFE0

/-- Whether dcbz may not establish a block: its storage is caching inhibited or write-through (R507). -/
def State.blockRefusesZero (s : State) (base : Word) : Bool :=
  match s.translateData true base with
  | .real _ a => a.i || a.w
  | .miss | .denied _ _ | .duplicate => false

/-! ## Data cache -/

/-- dcba (R501): no operation, no interrupt of any kind. -/
def execDcba (_ra _rb : Reg) (nr : Bool) (s : State) : Result := cacheHint nr s

/-- dcbf (R502): classed as a load. -/
def execDcbf (ra rb : Reg) (nr : Bool) (s : State) : Result := cacheForm false (s.eaX ra rb) nr s

/-- dcbi (R503): privileged, classed as a store. -/
def execDcbi (ra rb : Reg) (nr : Bool) (s : State) : Result := privileged s (cacheForm true (s.eaX ra rb) nr s)

/-- dcbst (R504): classed as a load. -/
def execDcbst (ra rb : Reg) (nr : Bool) (s : State) : Result := cacheForm false (s.eaX ra rb) nr s

/-- dcbt (R505): a hint. -/
def execDcbt (_ra _rb : Reg) (nr : Bool) (s : State) : Result := cacheHint nr s

/-- dcbtst (R506): a hint. -/
def execDcbtst (_ra _rb : Reg) (nr : Bool) (s : State) : Result := cacheHint nr s

/-- dcbz (R507): translation and protection, then Alignment for caching-inhibited or write-through storage, else 32 zero
bytes; DEAR is the ea as computed. -/
def execDcbz (ra rb : Reg) (nr : Bool) (s : State) : Result :=
  let ea := s.eaX ra rb
  let base := blockBase ea
  let eas := byteAddresses base 32
  unlessStopped (translationStopAt s true ea base) <|
    if s.blockRefusesZero base then .next (alignmentInterrupt ea s)
    else unlessStopped (busStop s true (singleBytes eas))
      (.next ((s.afterStores (byteParts (eas.map fun a => (a, 0)))).finish nr))

/-- dccci (R508): privileged, classed as a store. -/
def execDccci (ra rb : Reg) (nr : Bool) (s : State) : Result := privileged s (cacheForm true (s.eaX ra rb) nr s)

/-- dcread (R509): privileged; TLB check, Alignment, then RT is a free value (U14). -/
def execDcread (rt ra rb : Reg) (nr : Bool) (s : State) : Result :=
  let ea := s.eaX ra rb
  privileged s <| unlessStopped (alignmentStop s false ea [ea])
    (.next (((s.setReg rt (s.free 0)).drawn 1).finish nr))

/-! ## Instruction cache -/

/-- icbi (R510): classed as a data load. -/
def execIcbi (ra rb : Reg) (nr : Bool) (s : State) : Result := cacheForm false (s.eaX ra rb) nr s

/-- icbt (R511): a hint, not privileged (D23). -/
def execIcbt (_ra _rb : Reg) (nr : Bool) (s : State) : Result := cacheHint nr s

/-- iccci (R512): privileged; the EA is not used. -/
def execIccci (_ra _rb : Reg) (nr : Bool) (s : State) : Result := privileged s (.next (s.finish nr))

/-- icread (R517): privileged; translated as a data load; ICDBDR is a free value (U14). -/
def execIcread (ra rb : Reg) (nr : Bool) (s : State) : Result :=
  let ea := s.eaX ra rb
  privileged s <| unlessStopped (translationStopAt s false ea ea)
    (.next (({ s with icdbdr := s.free 0 }.drawn 1).finish nr))

end Sys2Proof.Machine
end

