-- ==== Sys2Proof/Machine/DebugEvents.lean ====
section
/-! DEFINITION. Debug modes, the recording of a debug event, and the Debug interrupt (60_exceptions.md R670 to R676,
10_state.md R90 to R92). -/
namespace Sys2Proof.Machine

/-- DBCR0[EDM]: external debug mode. -/
def State.edmBit (s : State) : Bool := bitOf s.dbcr0 0
/-- DBCR0[IDM]: internal debug mode. -/
def State.idmBit (s : State) : Bool := bitOf s.dbcr0 1
/-- DBCR0[TDE]: trap debug event enable. -/
def State.tdeBit (s : State) : Bool := bitOf s.dbcr0 7

/-- External debug mode or debug wait mode, whose external tool is not modelled (00_scope.md R6 (c)). -/
def State.externalDebugMode (s : State) : Bool := s.edmBit || s.dweBit

/-- The DBSR bits that record events: 0 to 13, not MRR (10_state.md R92). -/
def debugEventMask : Word := 0xFFFC0000

/-- Debug interrupt with the address to save (R676). -/
def debugInterrupt (saved : Word) (s : State) : State := takeInterrupt .debug saved s

/-- Record debug events: their DBSR bits, and IDE if MSR[DE] = 0 (R676). -/
def recordDebugEvents (bits : Word) (s : State) : State :=
  if bits = 0 then s
  else { s with dbsr := s.dbsr ||| (bits &&& debugEventMask) ||| (if s.deBit then 0 else bitMask 11) }

/-- A trap (49_processor_management.md R575): the Program interrupt, unless the trap debug event is enabled in internal
debug mode. Then, with MSR[DE] = 1, the Debug interrupt takes its place; with MSR[DE] = 0 DBSR[TIE, IDE] are set and the
Program interrupt is taken. -/
def trap (s : State) : Result :=
  if s.tdeBit && s.externalDebugMode then .refused .externalDebug
  else if s.tdeBit && s.idmBit then
    let t := recordDebugEvents (bitMask 3) s
    if s.deBit then .next (debugInterrupt s.pc t) else .next (programInterrupt .trap t)
  else .next (programInterrupt .trap s)

end Sys2Proof.Machine
end

