-- ==== Sys2Proof/Machine/LoadStore.lean ====
section
/-! DEFINITION. The storage reference instructions (40_storage_reference.md). -/
namespace Sys2Proof.Machine

/-! ## Shared operations -/

/-- The value of a load after zero extension: MemRead already gives it in a word (R263). -/
def zeroExtended (v : Word) : Word := v

/-- A halfword sign-extended (R267). -/
def halfAlgebraic (v : Word) : Word := sext16 (v.extractLsb' 0 16)

/-- The low-order n bytes of a value in the opposite order (R291 to R294). -/
def byteReversed (n : Nat) (v : Word) : Word := wordOfByteList (byteListOfWord n v).reverse

/-- A load of n bytes at ea: RT <- extend(MemRead(ea, n)), if nothing stops the access (R262, R263). -/
def loadForm (rt : Reg) (ea : Word) (n : Nat) (extend : Word → Word) (nr : Bool) (s : State) : Result :=
  unlessStopped (dataStop s false (byteAddresses ea n) (operandParts ea n))
    (.next ((((s.afterLoads (operandParts ea n)).drawn (s.loadDraws n (operandParts ea n))).setReg rt
      (extend (s.memRead s.hostLog 0 ea n))).finish nr))

/-- A load with update: RA <- ea as well. GPR[RA] is a free value if RA = 0 or RA = RT (R261, U2). -/
def loadUpdateForm (rt ra : Reg) (ea : Word) (n : Nat) (extend : Word → Word) (nr : Bool) (s : State) : Result :=
  unlessStopped (dataStop s false (byteAddresses ea n) (operandParts ea n)) <|
    let s1 := ((s.afterLoads (operandParts ea n)).drawn (s.loadDraws n (operandParts ea n))).setReg rt
      (extend (s.memRead s.hostLog 0 ea n))
    .next ((if ra = 0 ∨ ra = rt then (s1.setReg ra (s1.free 0)).drawn 1 else s1.setReg ra ea).finish nr)

/-- A store of the n low-order bytes of v at ea, if nothing stops the access (R262, R279). -/
def storeForm (ea : Word) (n : Nat) (v : Word) (nr : Bool) (s : State) : Result :=
  unlessStopped (dataStop s true (byteAddresses ea n) (operandParts ea n))
    (.next ((s.memWrite ea n v).finish nr))

/-- A store with update: RA <- ea as well; GPR[0] is a free value if RA = 0 (R261, U2). -/
def storeUpdateForm (ra : Reg) (ea : Word) (n : Nat) (v : Word) (nr : Bool) (s : State) : Result :=
  unlessStopped (dataStop s true (byteAddresses ea n) (operandParts ea n)) <|
    let s1 := s.memWrite ea n v
    .next ((if ra = 0 then (s1.setReg ra (s1.free 0)).drawn 1 else s1.setReg ra ea).finish nr)

/-! ## Instructions -/

/-- lbz (R263). -/
def execLbz (rt ra : Reg) (d : BitVec 16) (s : State) : Result :=
  loadForm rt (s.eaD ra d) 1 zeroExtended false s

/-- lbzu (R264). -/
def execLbzu (rt ra : Reg) (d : BitVec 16) (s : State) : Result :=
  loadUpdateForm rt ra (s.eaD ra d) 1 zeroExtended false s

/-- lbzux (R265). -/
def execLbzux (rt ra rb : Reg) (nr : Bool) (s : State) : Result :=
  loadUpdateForm rt ra (s.eaX ra rb) 1 zeroExtended nr s

/-- lbzx (R266). -/
def execLbzx (rt ra rb : Reg) (nr : Bool) (s : State) : Result :=
  loadForm rt (s.eaX ra rb) 1 zeroExtended nr s

/-- lha (R267). -/
def execLha (rt ra : Reg) (d : BitVec 16) (s : State) : Result :=
  loadForm rt (s.eaD ra d) 2 halfAlgebraic false s

/-- lhau (R268). -/
def execLhau (rt ra : Reg) (d : BitVec 16) (s : State) : Result :=
  loadUpdateForm rt ra (s.eaD ra d) 2 halfAlgebraic false s

/-- lhaux (R269). -/
def execLhaux (rt ra rb : Reg) (nr : Bool) (s : State) : Result :=
  loadUpdateForm rt ra (s.eaX ra rb) 2 halfAlgebraic nr s

/-- lhax (R270). -/
def execLhax (rt ra rb : Reg) (nr : Bool) (s : State) : Result :=
  loadForm rt (s.eaX ra rb) 2 halfAlgebraic nr s

/-- lhz (R271). -/
def execLhz (rt ra : Reg) (d : BitVec 16) (s : State) : Result :=
  loadForm rt (s.eaD ra d) 2 zeroExtended false s

/-- lhzu (R272). -/
def execLhzu (rt ra : Reg) (d : BitVec 16) (s : State) : Result :=
  loadUpdateForm rt ra (s.eaD ra d) 2 zeroExtended false s

/-- lhzux (R273). -/
def execLhzux (rt ra rb : Reg) (nr : Bool) (s : State) : Result :=
  loadUpdateForm rt ra (s.eaX ra rb) 2 zeroExtended nr s

/-- lhzx (R274). -/
def execLhzx (rt ra rb : Reg) (nr : Bool) (s : State) : Result :=
  loadForm rt (s.eaX ra rb) 2 zeroExtended nr s

/-- lwz (R275). -/
def execLwz (rt ra : Reg) (d : BitVec 16) (s : State) : Result :=
  loadForm rt (s.eaD ra d) 4 zeroExtended false s

/-- lwzu (R276). -/
def execLwzu (rt ra : Reg) (d : BitVec 16) (s : State) : Result :=
  loadUpdateForm rt ra (s.eaD ra d) 4 zeroExtended false s

/-- lwzux (R277). -/
def execLwzux (rt ra rb : Reg) (nr : Bool) (s : State) : Result :=
  loadUpdateForm rt ra (s.eaX ra rb) 4 zeroExtended nr s

/-- lwzx (R278). -/
def execLwzx (rt ra rb : Reg) (nr : Bool) (s : State) : Result :=
  loadForm rt (s.eaX ra rb) 4 zeroExtended nr s

/-- stb (R279). -/
def execStb (rs ra : Reg) (d : BitVec 16) (s : State) : Result :=
  storeForm (s.eaD ra d) 1 (s.reg rs) false s

/-- stbu (R280). -/
def execStbu (rs ra : Reg) (d : BitVec 16) (s : State) : Result :=
  storeUpdateForm ra (s.eaD ra d) 1 (s.reg rs) false s

/-- stbux (R281). -/
def execStbux (rs ra rb : Reg) (nr : Bool) (s : State) : Result :=
  storeUpdateForm ra (s.eaX ra rb) 1 (s.reg rs) nr s

/-- stbx (R282). -/
def execStbx (rs ra rb : Reg) (nr : Bool) (s : State) : Result :=
  storeForm (s.eaX ra rb) 1 (s.reg rs) nr s

/-- sth (R283). -/
def execSth (rs ra : Reg) (d : BitVec 16) (s : State) : Result :=
  storeForm (s.eaD ra d) 2 (s.reg rs) false s

/-- sthu (R284). -/
def execSthu (rs ra : Reg) (d : BitVec 16) (s : State) : Result :=
  storeUpdateForm ra (s.eaD ra d) 2 (s.reg rs) false s

/-- sthux (R285). -/
def execSthux (rs ra rb : Reg) (nr : Bool) (s : State) : Result :=
  storeUpdateForm ra (s.eaX ra rb) 2 (s.reg rs) nr s

/-- sthx (R286). -/
def execSthx (rs ra rb : Reg) (nr : Bool) (s : State) : Result :=
  storeForm (s.eaX ra rb) 2 (s.reg rs) nr s

/-- stw (R287). -/
def execStw (rs ra : Reg) (d : BitVec 16) (s : State) : Result :=
  storeForm (s.eaD ra d) 4 (s.reg rs) false s

/-- stwu (R288). -/
def execStwu (rs ra : Reg) (d : BitVec 16) (s : State) : Result :=
  storeUpdateForm ra (s.eaD ra d) 4 (s.reg rs) false s

/-- stwux (R289). -/
def execStwux (rs ra rb : Reg) (nr : Bool) (s : State) : Result :=
  storeUpdateForm ra (s.eaX ra rb) 4 (s.reg rs) nr s

/-- stwx (R290). -/
def execStwx (rs ra rb : Reg) (nr : Bool) (s : State) : Result :=
  storeForm (s.eaX ra rb) 4 (s.reg rs) nr s

/-- lhbrx (R291). -/
def execLhbrx (rt ra rb : Reg) (nr : Bool) (s : State) : Result :=
  loadForm rt (s.eaX ra rb) 2 (byteReversed 2) nr s

/-- lwbrx (R292). -/
def execLwbrx (rt ra rb : Reg) (nr : Bool) (s : State) : Result :=
  loadForm rt (s.eaX ra rb) 4 (byteReversed 4) nr s

/-- sthbrx (R293). -/
def execSthbrx (rs ra rb : Reg) (nr : Bool) (s : State) : Result :=
  storeForm (s.eaX ra rb) 2 (byteReversed 2 (s.reg rs)) nr s

/-- stwbrx (R294). -/
def execStwbrx (rs ra rb : Reg) (nr : Bool) (s : State) : Result :=
  storeForm (s.eaX ra rb) 4 (byteReversed 4 (s.reg rs)) nr s

end Sys2Proof.Machine
end

