-- ==== Sys2Proof/Machine/Multiple.lean ====
section
/-! DEFINITION. Load and store multiple, the string instructions, and the reservation pair
(41_storage_multiple_string_sync.md). -/
namespace Sys2Proof.Machine

/-! ## Shared operations -/

/-- The registers and word addresses of lmw and stmw: register r of the range RT to 31 with ea + 4 (r - RT) (R311). -/
def multipleWords (rt : Reg) (ea : Word) : List (Nat × Word) :=
  (List.range (32 - rt.toNat)).map fun k => (rt.toNat + k, ea + BitVec.ofNat 32 (4 * k))

/-- The words lmw loads: not that of register RA, unless it is register 31 (R311). -/
def loadedWords (rt ra : Reg) (ea : Word) : List (Nat × Word) :=
  (multipleWords rt ea).filter fun p => p.1 ≠ ra.toNat || p.1 == 31

/-- The byte addresses of a list of words. -/
def wordsBytes (ws : List (Nat × Word)) : List Word := ws.flatMap fun p => byteAddresses p.2 4

/-- The single accesses of a list of words. -/
def wordsParts (ws : List (Nat × Word)) : List (Word × Nat) := ws.flatMap fun p => operandParts p.2 4

/-- General registers written in order, register number and value. -/
def writeRegs (gpr : Vector Word 32) : List (Nat × Word) → Vector Word 32
  | [] => gpr
  | (r, v) :: rest => writeRegs (gpr.setIfInBounds r v) rest

/-- The byte count of lswi and stswi: NB, or 32 for 0 (R313). -/
def stringCount (nb : BitVec 5) : Nat := if nb = 0 then 32 else nb.toNat

/-- The register of byte k of a string: (RT + k / 4) mod 32 (R313). -/
def stringReg (rt : Reg) (k : Nat) : Nat := (rt.toNat + k / 4) % 32

/-- The last register a string of `count` bytes fills (R313). -/
def stringLast (rt : Reg) (count : Nat) : Nat := (rt.toNat + (count + 3) / 4 + 31) % 32

/-- Whether a string load writes register r: it is no base register, or it is the last one (R313, R314). -/
def stringLoads (rt : Reg) (bases : List Nat) (count r : Nat) : Bool := !bases.contains r || r == stringLast rt count

/-- The bytes a string load reads, by number (R313). -/
def stringBytes (rt : Reg) (bases : List Nat) (count : Nat) : List Nat :=
  (List.range count).filter fun k => stringLoads rt bases count (stringReg rt k)

/-- The single loads of string bytes (R310 (a)). -/
def stringParts (ea : Word) (ks : List Nat) : List (Word × Nat) := singleBytes (ks.map fun k => ea + BitVec.ofNat 32 k)

/-- Byte k of a string load that reads the bytes `ks`, after those before it. -/
def State.stringByte (s : State) (ea : Word) (ks : List Nat) (k : Nat) : Byte :=
  s.loadPart (s.logLoads s.hostLog (stringParts ea (ks.filter (· < k)))) k (ea + BitVec.ofNat 32 k) 1 0

/-- The word of the j-th register of a string load: bytes from the most significant down, the missing ones 0 (R313). -/
def State.stringWord (s : State) (ea : Word) (ks : List Nat) (count j : Nat) : Word :=
  wordOfByteList ((List.range 4).map fun i => if 4 * j + i < count then s.stringByte ea ks (4 * j + i) else 0)

/-- The base registers that a string load of `count` bytes fills: an invalid form (R313, R314). -/
def stringBasesFilled (rt : Reg) (bases : List Reg) (count : Nat) : List Reg :=
  bases.filter fun r => (List.range count).any fun k => stringReg rt k == r.toNat

/-- A string load of `count` bytes at ea (R313, R314). With a count of 0 nothing is accessed or changed. A base register in
the range is a free value afterwards (U2). -/
def stringLoadForm (rt : Reg) (bases : List Reg) (ea : Word) (count : Nat) (nr : Bool) (s : State) : Result :=
  let numbers := bases.map (·.toNat)
  let ks := stringBytes rt numbers count
  let eas := ks.map fun k => ea + BitVec.ofNat 32 k
  let words := ((List.range ((count + 3) / 4)).filter fun j => stringLoads rt numbers count (stringReg rt (4 * j))).map
    fun j => (stringReg rt (4 * j), s.stringWord ea ks count j)
  unlessStopped (dataStop s false eas (stringParts ea ks))
    (.next ((State.freeRegs { s.afterLoads (stringParts ea ks) with
      gpr := writeRegs s.gpr words
      freeCount := s.freeCount + s.loadDraws count (stringParts ea ks) } (stringBasesFilled rt bases count)).finish nr))

/-- The bytes of a string store with their addresses (R315). -/
def State.stringStoreBytes (s : State) (rs : Reg) (ea : Word) (count : Nat) : List (Word × Byte) :=
  (List.range count).map fun k =>
    (ea + BitVec.ofNat 32 k, (s.reg (BitVec.ofNat 5 (stringReg rs k))).extractLsb' (24 - 8 * (k % 4)) 8)

/-- A string store of `count` bytes at ea (R315, R316). -/
def stringStoreForm (rs : Reg) (ea : Word) (count : Nat) (nr : Bool) (s : State) : Result :=
  unlessStopped (dataStop s true (byteAddresses ea count) (singleBytes (byteAddresses ea count)))
    (.next ((s.afterStores (byteParts (s.stringStoreBytes rs ea count))).finish nr))

/-! ## Multiple -/

/-- The word lmw loads for a register of its list, after the words before it (R310 (a)). -/
def State.multipleWord (s : State) (rt : Reg) (ws : List (Nat × Word)) (p : Nat × Word) : Word :=
  s.memRead (s.logLoads s.hostLog (wordsParts (ws.filter (·.1 < p.1)))) (4 * (p.1 - rt.toNat)) p.2 4

/-- lmw (R311); register RA in the range is a free value afterwards (U2). -/
def execLmw (rt ra : Reg) (d : BitVec 16) (s : State) : Result :=
  let ws := loadedWords rt ra (s.eaD ra d)
  unlessStopped (dataStop s false (wordsBytes ws) (wordsParts ws))
    (.next (State.freeRegs { s.afterLoads (wordsParts ws) with
      gpr := writeRegs s.gpr (ws.map fun p => (p.1, s.multipleWord rt ws p))
      freeCount := s.freeCount + s.loadDraws (4 * (32 - rt.toNat)) (wordsParts ws) }
      (if rt ≤ ra then [ra] else [])).advance)

/-- stmw (R312). -/
def execStmw (rs ra : Reg) (d : BitVec 16) (s : State) : Result :=
  let ws := multipleWords rs (s.eaD ra d)
  unlessStopped (dataStop s true (wordsBytes ws) (wordsParts ws))
    (.next (s.afterStores (ws.flatMap fun p => s.operandStores p.2 4 (s.reg (BitVec.ofNat 5 p.1)))).advance)

/-! ## Strings -/

/-- lswi (R313). -/
def execLswi (rt ra : Reg) (nb : BitVec 5) (nr : Bool) (s : State) : Result :=
  stringLoadForm rt [ra] (s.ra0 ra) (stringCount nb) nr s

/-- lswx (R314). -/
def execLswx (rt ra rb : Reg) (nr : Bool) (s : State) : Result :=
  stringLoadForm rt [ra, rb] (s.eaX ra rb) (xerTbc s.xer) nr s

/-- stswi (R315). -/
def execStswi (rs ra : Reg) (nb : BitVec 5) (nr : Bool) (s : State) : Result :=
  stringStoreForm rs (s.ra0 ra) (stringCount nb) nr s

/-- stswx (R316). -/
def execStswx (rs ra rb : Reg) (nr : Bool) (s : State) : Result :=
  stringStoreForm rs (s.eaX ra rb) (xerTbc s.xer) nr s

/-! ## Reservation -/

/-- lwarx (R317): translation checks, alignment, then the load; RESERVE is set. -/
def execLwarx (rt ra rb : Reg) (nr : Bool) (s : State) : Result :=
  let ea := s.eaX ra rb
  let eas := byteAddresses ea 4
  unlessStopped (alignmentStop s false ea eas) <|
    unlessStopped (busStop s false (operandParts ea 4))
      (.next (({ s.afterLoads (operandParts ea 4) with
        reserve := true
        freeCount := s.freeCount + s.loadDraws 4 (operandParts ea 4) }.setReg rt (s.memRead s.hostLog 0 ea 4)).finish nr))

/-- stwcx. (R318): the checks are made in both cases (U3); the store only while RESERVE = 1, which it clears. -/
def execStwcx (rs ra rb : Reg) (s : State) : Result :=
  let ea := s.eaX ra rb
  let eas := byteAddresses ea 4
  unlessStopped (alignmentStop s true ea eas) <|
    if s.reserve then
      unlessStopped (busStop s true (operandParts ea 4))
        (.next { s.memWrite ea 4 (s.reg rs) with
          reserve := false
          cr := withCrField s.cr 0 (fourBits false false true (xerSo s.xer))
          pc := s.pc + 4 })
    else .next { s with cr := withCrField s.cr 0 (fourBits false false false (xerSo s.xer)), pc := s.pc + 4 }

end Sys2Proof.Machine
end

