-- ==== Sys2Proof/Syntax.lean ====
section
/-! DEFINITION. The instruction set: one constructor for each row of spec/opcode_table.json, family by family.

Fields have the width of their encoding (30_encoding.md R203). SPR, TBR and DCR numbers are held in their natural order,
not with their halves swapped (49_processor_management.md R570). `rc` is the record bit, `oe` the overflow enable, `lk`
the link bit, `aa` the absolute bit. `nr` is instruction bit 31 of the X, XL and XFX forms that have no record or link bit:
with 1 there the instruction runs and CR0 becomes a free value (R246 (b), 93_implementation_defined.md U1). The other
reserved bits are no part of an instruction: the decoder ignores them (R246 (a), U22). -/
namespace Sys2Proof

/-- A PowerPC 405 instruction (30_encoding.md R210). -/
inductive Instr where
  -- Storage reference (40_storage_reference.md)
  /-- `lbz RT, D(RA)` (R263). -/
  | lbz (rt ra : Reg) (d : BitVec 16)
  /-- `lbzu RT, D(RA)` (R264). -/
  | lbzu (rt ra : Reg) (d : BitVec 16)
  /-- `lbzux RT, RA, RB` (R265). -/
  | lbzux (rt ra rb : Reg) (nr : Bool)
  /-- `lbzx RT, RA, RB` (R266). -/
  | lbzx (rt ra rb : Reg) (nr : Bool)
  /-- `lha RT, D(RA)` (R267). -/
  | lha (rt ra : Reg) (d : BitVec 16)
  /-- `lhau RT, D(RA)` (R268). -/
  | lhau (rt ra : Reg) (d : BitVec 16)
  /-- `lhaux RT, RA, RB` (R269). -/
  | lhaux (rt ra rb : Reg) (nr : Bool)
  /-- `lhax RT, RA, RB` (R270). -/
  | lhax (rt ra rb : Reg) (nr : Bool)
  /-- `lhz RT, D(RA)` (R271). -/
  | lhz (rt ra : Reg) (d : BitVec 16)
  /-- `lhzu RT, D(RA)` (R272). -/
  | lhzu (rt ra : Reg) (d : BitVec 16)
  /-- `lhzux RT, RA, RB` (R273). -/
  | lhzux (rt ra rb : Reg) (nr : Bool)
  /-- `lhzx RT, RA, RB` (R274). -/
  | lhzx (rt ra rb : Reg) (nr : Bool)
  /-- `lwz RT, D(RA)` (R275). -/
  | lwz (rt ra : Reg) (d : BitVec 16)
  /-- `lwzu RT, D(RA)` (R276). -/
  | lwzu (rt ra : Reg) (d : BitVec 16)
  /-- `lwzux RT, RA, RB` (R277). -/
  | lwzux (rt ra rb : Reg) (nr : Bool)
  /-- `lwzx RT, RA, RB` (R278). -/
  | lwzx (rt ra rb : Reg) (nr : Bool)
  /-- `stb RS, D(RA)` (R279). -/
  | stb (rs ra : Reg) (d : BitVec 16)
  /-- `stbu RS, D(RA)` (R280). -/
  | stbu (rs ra : Reg) (d : BitVec 16)
  /-- `stbux RS, RA, RB` (R281). -/
  | stbux (rs ra rb : Reg) (nr : Bool)
  /-- `stbx RS, RA, RB` (R282). -/
  | stbx (rs ra rb : Reg) (nr : Bool)
  /-- `sth RS, D(RA)` (R283). -/
  | sth (rs ra : Reg) (d : BitVec 16)
  /-- `sthu RS, D(RA)` (R284). -/
  | sthu (rs ra : Reg) (d : BitVec 16)
  /-- `sthux RS, RA, RB` (R285). -/
  | sthux (rs ra rb : Reg) (nr : Bool)
  /-- `sthx RS, RA, RB` (R286). -/
  | sthx (rs ra rb : Reg) (nr : Bool)
  /-- `stw RS, D(RA)` (R287). -/
  | stw (rs ra : Reg) (d : BitVec 16)
  /-- `stwu RS, D(RA)` (R288). -/
  | stwu (rs ra : Reg) (d : BitVec 16)
  /-- `stwux RS, RA, RB` (R289). -/
  | stwux (rs ra rb : Reg) (nr : Bool)
  /-- `stwx RS, RA, RB` (R290). -/
  | stwx (rs ra rb : Reg) (nr : Bool)
  /-- `lhbrx RT, RA, RB` (R291). -/
  | lhbrx (rt ra rb : Reg) (nr : Bool)
  /-- `lwbrx RT, RA, RB` (R292). -/
  | lwbrx (rt ra rb : Reg) (nr : Bool)
  /-- `sthbrx RS, RA, RB` (R293). -/
  | sthbrx (rs ra rb : Reg) (nr : Bool)
  /-- `stwbrx RS, RA, RB` (R294). -/
  | stwbrx (rs ra rb : Reg) (nr : Bool)
  -- Multiple, string and reservation (41_storage_multiple_string_sync.md)
  /-- `lmw RT, D(RA)` (R311). -/
  | lmw (rt ra : Reg) (d : BitVec 16)
  /-- `stmw RS, D(RA)` (R312). -/
  | stmw (rs ra : Reg) (d : BitVec 16)
  /-- `lswi RT, RA, NB` (R313). -/
  | lswi (rt ra : Reg) (nb : BitVec 5) (nr : Bool)
  /-- `lswx RT, RA, RB` (R314). -/
  | lswx (rt ra rb : Reg) (nr : Bool)
  /-- `stswi RS, RA, NB` (R315). -/
  | stswi (rs ra : Reg) (nb : BitVec 5) (nr : Bool)
  /-- `stswx RS, RA, RB` (R316). -/
  | stswx (rs ra rb : Reg) (nr : Bool)
  /-- `lwarx RT, RA, RB` (R317). -/
  | lwarx (rt ra rb : Reg) (nr : Bool)
  /-- `stwcx. RS, RA, RB` (R318). -/
  | stwcx (rs ra rb : Reg)
  -- Fixed-point arithmetic (42_arithmetic.md)
  /-- `add RT, RA, RB` (R331). -/
  | add (rt ra rb : Reg) (oe rc : Bool)
  /-- `addc RT, RA, RB` (R332). -/
  | addc (rt ra rb : Reg) (oe rc : Bool)
  /-- `adde RT, RA, RB` (R333). -/
  | adde (rt ra rb : Reg) (oe rc : Bool)
  /-- `addi RT, RA, IM` (R334). -/
  | addi (rt ra : Reg) (im : BitVec 16)
  /-- `addic RT, RA, IM` (R335). -/
  | addic (rt ra : Reg) (im : BitVec 16)
  /-- `addic. RT, RA, IM` (R336). -/
  | addicRc (rt ra : Reg) (im : BitVec 16)
  /-- `addis RT, RA, IM` (R337). -/
  | addis (rt ra : Reg) (im : BitVec 16)
  /-- `addme RT, RA` (R338). -/
  | addme (rt ra : Reg) (oe rc : Bool)
  /-- `addze RT, RA` (R339). -/
  | addze (rt ra : Reg) (oe rc : Bool)
  /-- `divw RT, RA, RB` (R340). -/
  | divw (rt ra rb : Reg) (oe rc : Bool)
  /-- `divwu RT, RA, RB` (R341). -/
  | divwu (rt ra rb : Reg) (oe rc : Bool)
  /-- `mulhw RT, RA, RB` (R342). -/
  | mulhw (rt ra rb : Reg) (rc : Bool)
  /-- `mulhwu RT, RA, RB` (R343). -/
  | mulhwu (rt ra rb : Reg) (rc : Bool)
  /-- `mulli RT, RA, IM` (R344). -/
  | mulli (rt ra : Reg) (im : BitVec 16)
  /-- `mullw RT, RA, RB` (R345). -/
  | mullw (rt ra rb : Reg) (oe rc : Bool)
  /-- `neg RT, RA` (R346). -/
  | neg (rt ra : Reg) (oe rc : Bool)
  /-- `subf RT, RA, RB` (R347). -/
  | subf (rt ra rb : Reg) (oe rc : Bool)
  /-- `subfc RT, RA, RB` (R348). -/
  | subfc (rt ra rb : Reg) (oe rc : Bool)
  /-- `subfe RT, RA, RB` (R349). -/
  | subfe (rt ra rb : Reg) (oe rc : Bool)
  /-- `subfic RT, RA, IM` (R350). -/
  | subfic (rt ra : Reg) (im : BitVec 16)
  /-- `subfme RT, RA` (R351). -/
  | subfme (rt ra : Reg) (oe rc : Bool)
  /-- `subfze RT, RA` (R352). -/
  | subfze (rt ra : Reg) (oe rc : Bool)
  -- Multiply-accumulate and halfword multiply (43_mac_halfword.md)
  /-- `macchw RT, RA, RB` (R372). -/
  | macchw (rt ra rb : Reg) (oe rc : Bool)
  /-- `macchws RT, RA, RB` (R373). -/
  | macchws (rt ra rb : Reg) (oe rc : Bool)
  /-- `macchwsu RT, RA, RB` (R374). -/
  | macchwsu (rt ra rb : Reg) (oe rc : Bool)
  /-- `macchwu RT, RA, RB` (R375). -/
  | macchwu (rt ra rb : Reg) (oe rc : Bool)
  /-- `machhw RT, RA, RB` (R376). -/
  | machhw (rt ra rb : Reg) (oe rc : Bool)
  /-- `machhws RT, RA, RB` (R377). -/
  | machhws (rt ra rb : Reg) (oe rc : Bool)
  /-- `machhwsu RT, RA, RB` (R378). -/
  | machhwsu (rt ra rb : Reg) (oe rc : Bool)
  /-- `machhwu RT, RA, RB` (R379). -/
  | machhwu (rt ra rb : Reg) (oe rc : Bool)
  /-- `maclhw RT, RA, RB` (R380). -/
  | maclhw (rt ra rb : Reg) (oe rc : Bool)
  /-- `maclhws RT, RA, RB` (R381). -/
  | maclhws (rt ra rb : Reg) (oe rc : Bool)
  /-- `maclhwsu RT, RA, RB` (R382). -/
  | maclhwsu (rt ra rb : Reg) (oe rc : Bool)
  /-- `maclhwu RT, RA, RB` (R383). -/
  | maclhwu (rt ra rb : Reg) (oe rc : Bool)
  /-- `nmacchw RT, RA, RB` (R384). -/
  | nmacchw (rt ra rb : Reg) (oe rc : Bool)
  /-- `nmacchws RT, RA, RB` (R385). -/
  | nmacchws (rt ra rb : Reg) (oe rc : Bool)
  /-- `nmachhw RT, RA, RB` (R386). -/
  | nmachhw (rt ra rb : Reg) (oe rc : Bool)
  /-- `nmachhws RT, RA, RB` (R387). -/
  | nmachhws (rt ra rb : Reg) (oe rc : Bool)
  /-- `nmaclhw RT, RA, RB` (R388). -/
  | nmaclhw (rt ra rb : Reg) (oe rc : Bool)
  /-- `nmaclhws RT, RA, RB` (R389). -/
  | nmaclhws (rt ra rb : Reg) (oe rc : Bool)
  /-- `mulchw RT, RA, RB` (R390). -/
  | mulchw (rt ra rb : Reg) (rc : Bool)
  /-- `mulchwu RT, RA, RB` (R391). -/
  | mulchwu (rt ra rb : Reg) (rc : Bool)
  /-- `mulhhw RT, RA, RB` (R392). -/
  | mulhhw (rt ra rb : Reg) (rc : Bool)
  /-- `mulhhwu RT, RA, RB` (R393). -/
  | mulhhwu (rt ra rb : Reg) (rc : Bool)
  /-- `mullhw RT, RA, RB` (R394). -/
  | mullhw (rt ra rb : Reg) (rc : Bool)
  /-- `mullhwu RT, RA, RB` (R395). -/
  | mullhwu (rt ra rb : Reg) (rc : Bool)
  -- Logical and compare (44_logical_compare.md)
  /-- `and RA, RS, RB` (R411). -/
  | and (rs ra rb : Reg) (rc : Bool)
  /-- `andc RA, RS, RB` (R412). -/
  | andc (rs ra rb : Reg) (rc : Bool)
  /-- `andi. RA, RS, IM` (R413). -/
  | andi (rs ra : Reg) (im : BitVec 16)
  /-- `andis. RA, RS, IM` (R414). -/
  | andis (rs ra : Reg) (im : BitVec 16)
  /-- `cntlzw RA, RS` (R415). -/
  | cntlzw (rs ra : Reg) (rc : Bool)
  /-- `eqv RA, RS, RB` (R416). -/
  | eqv (rs ra rb : Reg) (rc : Bool)
  /-- `extsb RA, RS` (R417). -/
  | extsb (rs ra : Reg) (rc : Bool)
  /-- `extsh RA, RS` (R418). -/
  | extsh (rs ra : Reg) (rc : Bool)
  /-- `nand RA, RS, RB` (R419). -/
  | nand (rs ra rb : Reg) (rc : Bool)
  /-- `nor RA, RS, RB` (R420). -/
  | nor (rs ra rb : Reg) (rc : Bool)
  /-- `or RA, RS, RB` (R421). -/
  | or (rs ra rb : Reg) (rc : Bool)
  /-- `orc RA, RS, RB` (R422). -/
  | orc (rs ra rb : Reg) (rc : Bool)
  /-- `ori RA, RS, IM` (R423). -/
  | ori (rs ra : Reg) (im : BitVec 16)
  /-- `oris RA, RS, IM` (R424). -/
  | oris (rs ra : Reg) (im : BitVec 16)
  /-- `xor RA, RS, RB` (R425). -/
  | xor (rs ra rb : Reg) (rc : Bool)
  /-- `xori RA, RS, IM` (R426). -/
  | xori (rs ra : Reg) (im : BitVec 16)
  /-- `xoris RA, RS, IM` (R427). -/
  | xoris (rs ra : Reg) (im : BitVec 16)
  /-- `cmp BF, 0, RA, RB` (R428). -/
  | cmp (bf : BitVec 3) (ra rb : Reg) (nr : Bool)
  /-- `cmpi BF, 0, RA, IM` (R429). -/
  | cmpi (bf : BitVec 3) (ra : Reg) (im : BitVec 16)
  /-- `cmpl BF, 0, RA, RB` (R430). -/
  | cmpl (bf : BitVec 3) (ra rb : Reg) (nr : Bool)
  /-- `cmpli BF, 0, RA, IM` (R431). -/
  | cmpli (bf : BitVec 3) (ra : Reg) (im : BitVec 16)
  -- Branch and condition register logical (45_branch_cr_logical.md)
  /-- `b target` (R454). -/
  | b (li : BitVec 24) (aa lk : Bool)
  /-- `bc BO, BI, target` (R455). -/
  | bc (bo bi : BitVec 5) (bd : BitVec 14) (aa lk : Bool)
  /-- `bcctr BO, BI` (R456). -/
  | bcctr (bo bi : BitVec 5) (lk : Bool)
  /-- `bclr BO, BI` (R457). -/
  | bclr (bo bi : BitVec 5) (lk : Bool)
  /-- `crand BT, BA, BB` (R458). -/
  | crand (bt ba bb : BitVec 5) (nr : Bool)
  /-- `crandc BT, BA, BB` (R459). -/
  | crandc (bt ba bb : BitVec 5) (nr : Bool)
  /-- `creqv BT, BA, BB` (R460). -/
  | creqv (bt ba bb : BitVec 5) (nr : Bool)
  /-- `crnand BT, BA, BB` (R461). -/
  | crnand (bt ba bb : BitVec 5) (nr : Bool)
  /-- `crnor BT, BA, BB` (R462). -/
  | crnor (bt ba bb : BitVec 5) (nr : Bool)
  /-- `cror BT, BA, BB` (R463). -/
  | cror (bt ba bb : BitVec 5) (nr : Bool)
  /-- `crorc BT, BA, BB` (R464). -/
  | crorc (bt ba bb : BitVec 5) (nr : Bool)
  /-- `crxor BT, BA, BB` (R465). -/
  | crxor (bt ba bb : BitVec 5) (nr : Bool)
  /-- `mcrf BF, BFA` (R466). -/
  | mcrf (bf bfa : BitVec 3) (nr : Bool)
  -- Rotate and shift (46_rotate_shift.md)
  /-- `rlwimi RA, RS, SH, MB, ME` (R481). -/
  | rlwimi (rs ra : Reg) (sh mb me : BitVec 5) (rc : Bool)
  /-- `rlwinm RA, RS, SH, MB, ME` (R482). -/
  | rlwinm (rs ra : Reg) (sh mb me : BitVec 5) (rc : Bool)
  /-- `rlwnm RA, RS, RB, MB, ME` (R483). -/
  | rlwnm (rs ra rb : Reg) (mb me : BitVec 5) (rc : Bool)
  /-- `slw RA, RS, RB` (R484). -/
  | slw (rs ra rb : Reg) (rc : Bool)
  /-- `sraw RA, RS, RB` (R485). -/
  | sraw (rs ra rb : Reg) (rc : Bool)
  /-- `srawi RA, RS, SH` (R486). -/
  | srawi (rs ra : Reg) (sh : BitVec 5) (rc : Bool)
  /-- `srw RA, RS, RB` (R487). -/
  | srw (rs ra rb : Reg) (rc : Bool)
  -- Cache management (47_cache_management.md)
  /-- `dcba RA, RB` (R501). -/
  | dcba (ra rb : Reg) (nr : Bool)
  /-- `dcbf RA, RB` (R502). -/
  | dcbf (ra rb : Reg) (nr : Bool)
  /-- `dcbi RA, RB` (R503). -/
  | dcbi (ra rb : Reg) (nr : Bool)
  /-- `dcbst RA, RB` (R504). -/
  | dcbst (ra rb : Reg) (nr : Bool)
  /-- `dcbt RA, RB` (R505). -/
  | dcbt (ra rb : Reg) (nr : Bool)
  /-- `dcbtst RA, RB` (R506). -/
  | dcbtst (ra rb : Reg) (nr : Bool)
  /-- `dcbz RA, RB` (R507). -/
  | dcbz (ra rb : Reg) (nr : Bool)
  /-- `dccci RA, RB` (R508). -/
  | dccci (ra rb : Reg) (nr : Bool)
  /-- `dcread RT, RA, RB` (R509). -/
  | dcread (rt ra rb : Reg) (nr : Bool)
  /-- `icbi RA, RB` (R510). -/
  | icbi (ra rb : Reg) (nr : Bool)
  /-- `icbt RA, RB` (R511). -/
  | icbt (ra rb : Reg) (nr : Bool)
  /-- `iccci RA, RB` (R512). -/
  | iccci (ra rb : Reg) (nr : Bool)
  /-- `icread RA, RB` (R517). -/
  | icread (ra rb : Reg) (nr : Bool)
  -- Interrupt control and TLB (48_interrupt_control_tlb.md)
  /-- `mfmsr RT` (R531). -/
  | mfmsr (rt : Reg) (nr : Bool)
  /-- `mtmsr RS` (R532). -/
  | mtmsr (rs : Reg) (nr : Bool)
  /-- `rfci` (R533). -/
  | rfci (nr : Bool)
  /-- `rfi` (R534). -/
  | rfi (nr : Bool)
  /-- `wrtee RS` (R535). -/
  | wrtee (rs : Reg) (nr : Bool)
  /-- `wrteei E` (R536). -/
  | wrteei (e nr : Bool)
  /-- `tlbia` (R540). -/
  | tlbia (nr : Bool)
  /-- `tlbre RT, RA, WS` (R541). -/
  | tlbre (rt ra : Reg) (ws : BitVec 5) (nr : Bool)
  /-- `tlbsync` (R542). -/
  | tlbsync (nr : Bool)
  /-- `tlbsx RT, RA, RB` (R543). -/
  | tlbsx (rt ra rb : Reg) (rc : Bool)
  /-- `tlbwe RS, RA, WS` (R544). -/
  | tlbwe (rs ra : Reg) (ws : BitVec 5) (nr : Bool)
  -- Processor management (49_processor_management.md)
  /-- `eieio` (R561). -/
  | eieio (nr : Bool)
  /-- `isync` (R562). -/
  | isync (nr : Bool)
  /-- `mcrxr BF` (R563). -/
  | mcrxr (bf : BitVec 3) (nr : Bool)
  /-- `mfcr RT` (R564). -/
  | mfcr (rt : Reg) (nr : Bool)
  /-- `mfdcr RT, DCRN` (R565). -/
  | mfdcr (rt : Reg) (dcrn : BitVec 10) (nr : Bool)
  /-- `mtcrf FXM, RS` (R566). -/
  | mtcrf (rs : Reg) (fxm : BitVec 8) (nr : Bool)
  /-- `mtdcr DCRN, RS` (R567). -/
  | mtdcr (rs : Reg) (dcrn : BitVec 10) (nr : Bool)
  /-- `sync` (R568). -/
  | sync (nr : Bool)
  /-- `mfspr RT, SPRN` (R571). -/
  | mfspr (rt : Reg) (sprn : BitVec 10) (nr : Bool)
  /-- `mftb RT, TBRN` (R572). -/
  | mftb (rt : Reg) (tbrn : BitVec 10) (nr : Bool)
  /-- `mtspr SPRN, RS` (R573). -/
  | mtspr (rs : Reg) (sprn : BitVec 10) (nr : Bool)
  /-- `sc` (R574). -/
  | sc
  /-- `tw TO, RA, RB` (R575). -/
  | tw (tcond : BitVec 5) (ra rb : Reg) (nr : Bool)
  /-- `twi TO, RA, IM` (R576). -/
  | twi (tcond : BitVec 5) (ra : Reg) (im : BitVec 16)
deriving DecidableEq, Repr

end Sys2Proof
end

