-- ==== Sys2Proof/Machine/Debug.lean ====
section
/-! DEFINITION. The debug events of internal debug mode that a step recognises: instruction address compare, branch taken,
data address and data value compare, instruction completion, exception and unconditional (60_exceptions.md R671, R676; the trap event is
in `DebugEvents.lean`). The spec's own reference model refuses a program that enables them (D18); this model follows what
R671 and R676 say of them and refuses only the parts they do not say (log entry 9). -/
namespace Sys2Proof.Machine

/-! ## Enables -/

/-- Events are recognised and can interrupt: DBCR0[IDM], no external debug mode (R670). DESIGN CHOICE (log entry 36; unsafe):
with DBCR0[EDM] or MSR[DWE] also set, an event recorded in DBSR before takes no Debug interrupt. -/
def State.internalDebug (s : State) : Bool := s.idmBit && !s.externalDebugMode

/-- The event enables of DBCR0: IC, BT, EDE, TDE, IA1, IA2, IA3, IA4 (10_state.md R90). -/
def eventEnables0 : Word :=
  bitMask 4 ||| bitMask 5 ||| bitMask 6 ||| bitMask 7 ||| bitMask 8 ||| bitMask 9 ||| bitMask 12 ||| bitMask 13

/-- The event enables of DBCR1: D1R, D2R, D1W, D2W (10_state.md R91). -/
def eventEnables1 : Word := 0xF0000000

/-- Whether any debug event is enabled. -/
def State.anyEventEnabled (s : State) : Bool := s.dbcr0 &&& eventEnables0 != 0 || s.dbcr1 &&& eventEnables1 != 0

/-- An instruction address range toggle takes part: IA12 with IA12T, or IA34 with IA34T (R671). -/
def State.rangeToggleEnabled (s : State) : Bool :=
  ((bitOf s.dbcr0 8 || bitOf s.dbcr0 9) && bitOf s.dbcr0 10 && bitOf s.dbcr0 16)
    || ((bitOf s.dbcr0 12 || bitOf s.dbcr0 13) && bitOf s.dbcr0 14 && bitOf s.dbcr0 17)

/-- The debug set-ups the model refuses (U6). -/
def State.debugRefusal (s : State) : Option Refusal :=
  if s.externalDebugMode && s.anyEventEnabled then some .externalDebug
  else if s.idmBit && s.rangeToggleEnabled then some .rangeToggle
  else none

/-- A recorded event interrupts as soon as MSR[DE] = 1 in internal debug mode (R676); `bits` chooses the events. -/
def State.debugPending (s : State) (bits : Word) : Bool := s.internalDebug && s.deBit && s.dbsr &&& bits != 0

/-- DBSR[IA1, IA2, IA3, IA4] and DBSR[EDE, UDE], which rank above the critical input (R618). -/
def urgentEventBits : Word := bitMask 5 ||| bitMask 6 ||| bitMask 12 ||| bitMask 13 ||| bitMask 2 ||| bitMask 4

/-! ## Instruction address compare (R671) -/

/-- Whether the range lo <= a < hi, or its complement, holds a (R671, R93). -/
def inRange (exclusive : Bool) (lo hi a : Word) : Bool := (lo.ule a && a.ult hi) ^^ exclusive

/-- The DBSR bits of the instruction address compares that hit at pc. -/
def State.iacEvents (s : State) : Word :=
  let hit12 (iac : Word) : Bool :=
    if bitOf s.dbcr0 10 then inRange (bitOf s.dbcr0 11) s.iac1 s.iac2 s.pc else iac == s.pc
  let hit34 (iac : Word) : Bool :=
    if bitOf s.dbcr0 14 then inRange (bitOf s.dbcr0 15) s.iac3 s.iac4 s.pc else iac == s.pc
  (if bitOf s.dbcr0 8 && hit12 s.iac1 then bitMask 5 else 0) ||| (if bitOf s.dbcr0 9 && hit12 s.iac2 then bitMask 6 else 0)
    ||| (if bitOf s.dbcr0 12 && hit34 s.iac3 then bitMask 12 else 0)
    ||| (if bitOf s.dbcr0 13 && hit34 s.iac4 then bitMask 13 else 0)

/-! ## Branch taken (R671) -/

/-- Whether an instruction is a branch that will be taken. -/
def takesBranch (i : Instr) (s : State) : Bool :=
  match i with
  | .lbz _ _ _ => false
  | .lbzu _ _ _ => false
  | .lbzux _ _ _ _ => false
  | .lbzx _ _ _ _ => false
  | .lha _ _ _ => false
  | .lhau _ _ _ => false
  | .lhaux _ _ _ _ => false
  | .lhax _ _ _ _ => false
  | .lhz _ _ _ => false
  | .lhzu _ _ _ => false
  | .lhzux _ _ _ _ => false
  | .lhzx _ _ _ _ => false
  | .lwz _ _ _ => false
  | .lwzu _ _ _ => false
  | .lwzux _ _ _ _ => false
  | .lwzx _ _ _ _ => false
  | .stb _ _ _ => false
  | .stbu _ _ _ => false
  | .stbux _ _ _ _ => false
  | .stbx _ _ _ _ => false
  | .sth _ _ _ => false
  | .sthu _ _ _ => false
  | .sthux _ _ _ _ => false
  | .sthx _ _ _ _ => false
  | .stw _ _ _ => false
  | .stwu _ _ _ => false
  | .stwux _ _ _ _ => false
  | .stwx _ _ _ _ => false
  | .lhbrx _ _ _ _ => false
  | .lwbrx _ _ _ _ => false
  | .sthbrx _ _ _ _ => false
  | .stwbrx _ _ _ _ => false
  | .lmw _ _ _ => false
  | .stmw _ _ _ => false
  | .lswi _ _ _ _ => false
  | .lswx _ _ _ _ => false
  | .stswi _ _ _ _ => false
  | .stswx _ _ _ _ => false
  | .lwarx _ _ _ _ => false
  | .stwcx _ _ _ => false
  | .add _ _ _ _ _ => false
  | .addc _ _ _ _ _ => false
  | .adde _ _ _ _ _ => false
  | .addi _ _ _ => false
  | .addic _ _ _ => false
  | .addicRc _ _ _ => false
  | .addis _ _ _ => false
  | .addme _ _ _ _ => false
  | .addze _ _ _ _ => false
  | .divw _ _ _ _ _ => false
  | .divwu _ _ _ _ _ => false
  | .mulhw _ _ _ _ => false
  | .mulhwu _ _ _ _ => false
  | .mulli _ _ _ => false
  | .mullw _ _ _ _ _ => false
  | .neg _ _ _ _ => false
  | .subf _ _ _ _ _ => false
  | .subfc _ _ _ _ _ => false
  | .subfe _ _ _ _ _ => false
  | .subfic _ _ _ => false
  | .subfme _ _ _ _ => false
  | .subfze _ _ _ _ => false
  | .macchw _ _ _ _ _ => false
  | .macchws _ _ _ _ _ => false
  | .macchwsu _ _ _ _ _ => false
  | .macchwu _ _ _ _ _ => false
  | .machhw _ _ _ _ _ => false
  | .machhws _ _ _ _ _ => false
  | .machhwsu _ _ _ _ _ => false
  | .machhwu _ _ _ _ _ => false
  | .maclhw _ _ _ _ _ => false
  | .maclhws _ _ _ _ _ => false
  | .maclhwsu _ _ _ _ _ => false
  | .maclhwu _ _ _ _ _ => false
  | .nmacchw _ _ _ _ _ => false
  | .nmacchws _ _ _ _ _ => false
  | .nmachhw _ _ _ _ _ => false
  | .nmachhws _ _ _ _ _ => false
  | .nmaclhw _ _ _ _ _ => false
  | .nmaclhws _ _ _ _ _ => false
  | .mulchw _ _ _ _ => false
  | .mulchwu _ _ _ _ => false
  | .mulhhw _ _ _ _ => false
  | .mulhhwu _ _ _ _ => false
  | .mullhw _ _ _ _ => false
  | .mullhwu _ _ _ _ => false
  | .and _ _ _ _ => false
  | .andc _ _ _ _ => false
  | .andi _ _ _ => false
  | .andis _ _ _ => false
  | .cntlzw _ _ _ => false
  | .eqv _ _ _ _ => false
  | .extsb _ _ _ => false
  | .extsh _ _ _ => false
  | .nand _ _ _ _ => false
  | .nor _ _ _ _ => false
  | .or _ _ _ _ => false
  | .orc _ _ _ _ => false
  | .ori _ _ _ => false
  | .oris _ _ _ => false
  | .xor _ _ _ _ => false
  | .xori _ _ _ => false
  | .xoris _ _ _ => false
  | .cmp _ _ _ _ => false
  | .cmpi _ _ _ => false
  | .cmpl _ _ _ _ => false
  | .cmpli _ _ _ => false
  | .b _ _ _ => true
  | .bc bo bi _ _ _ => branchTaken bo bi (counterAfter bo s.ctr) s.cr
  | .bcctr bo bi _ => branchTaken bo bi (counterAfter bo s.ctr) s.cr
  | .bclr bo bi _ => branchTaken bo bi (counterAfter bo s.ctr) s.cr
  | .crand _ _ _ _ => false
  | .crandc _ _ _ _ => false
  | .creqv _ _ _ _ => false
  | .crnand _ _ _ _ => false
  | .crnor _ _ _ _ => false
  | .cror _ _ _ _ => false
  | .crorc _ _ _ _ => false
  | .crxor _ _ _ _ => false
  | .mcrf _ _ _ => false
  | .rlwimi _ _ _ _ _ _ => false
  | .rlwinm _ _ _ _ _ _ => false
  | .rlwnm _ _ _ _ _ _ => false
  | .slw _ _ _ _ => false
  | .sraw _ _ _ _ => false
  | .srawi _ _ _ _ => false
  | .srw _ _ _ _ => false
  | .dcba _ _ _ => false
  | .dcbf _ _ _ => false
  | .dcbi _ _ _ => false
  | .dcbst _ _ _ => false
  | .dcbt _ _ _ => false
  | .dcbtst _ _ _ => false
  | .dcbz _ _ _ => false
  | .dccci _ _ _ => false
  | .dcread _ _ _ _ => false
  | .icbi _ _ _ => false
  | .icbt _ _ _ => false
  | .iccci _ _ _ => false
  | .icread _ _ _ => false
  | .mfmsr _ _ => false
  | .mtmsr _ _ => false
  | .rfci _ => false
  | .rfi _ => false
  | .wrtee _ _ => false
  | .wrteei _ _ => false
  | .tlbia _ => false
  | .tlbre _ _ _ _ => false
  | .tlbsync _ => false
  | .tlbsx _ _ _ _ => false
  | .tlbwe _ _ _ _ => false
  | .eieio _ => false
  | .isync _ => false
  | .mcrxr _ _ => false
  | .mfcr _ _ => false
  | .mfdcr _ _ _ => false
  | .mtcrf _ _ _ => false
  | .mtdcr _ _ _ => false
  | .sync _ => false
  | .mfspr _ _ _ => false
  | .mftb _ _ _ => false
  | .mtspr _ _ _ => false
  | .sc => false
  | .tw _ _ _ _ => false
  | .twi _ _ _ => false

/-- DBSR[BT] if the event is enabled and the branch will be taken. -/
def branchEvents (i : Instr) (s : State) : Word := if bitOf s.dbcr0 5 && takesBranch i s then bitMask 1 else 0

/-! ## Data address compare (R671) -/

/-- The storage reference of an instruction: whether it is store-class, its effective address, its length in bytes. DESIGN
CHOICE (log entry 36; unsafe): the hints and iccci make none; the whole range of lmw, lswi and lswx counts, the words and
bytes of the registers they skip included; stwcx. makes one whether or not it stores. -/
def dataReference (i : Instr) (s : State) : Option (Bool × Word × Nat) :=
  match i with
  | .lbz _ ra d => some (false, (s.eaD ra d), 1)
  | .lbzu _ ra d => some (false, (s.eaD ra d), 1)
  | .lbzux _ ra rb _ => some (false, (s.eaX ra rb), 1)
  | .lbzx _ ra rb _ => some (false, (s.eaX ra rb), 1)
  | .lha _ ra d => some (false, (s.eaD ra d), 2)
  | .lhau _ ra d => some (false, (s.eaD ra d), 2)
  | .lhaux _ ra rb _ => some (false, (s.eaX ra rb), 2)
  | .lhax _ ra rb _ => some (false, (s.eaX ra rb), 2)
  | .lhz _ ra d => some (false, (s.eaD ra d), 2)
  | .lhzu _ ra d => some (false, (s.eaD ra d), 2)
  | .lhzux _ ra rb _ => some (false, (s.eaX ra rb), 2)
  | .lhzx _ ra rb _ => some (false, (s.eaX ra rb), 2)
  | .lwz _ ra d => some (false, (s.eaD ra d), 4)
  | .lwzu _ ra d => some (false, (s.eaD ra d), 4)
  | .lwzux _ ra rb _ => some (false, (s.eaX ra rb), 4)
  | .lwzx _ ra rb _ => some (false, (s.eaX ra rb), 4)
  | .stb _ ra d => some (true, (s.eaD ra d), 1)
  | .stbu _ ra d => some (true, (s.eaD ra d), 1)
  | .stbux _ ra rb _ => some (true, (s.eaX ra rb), 1)
  | .stbx _ ra rb _ => some (true, (s.eaX ra rb), 1)
  | .sth _ ra d => some (true, (s.eaD ra d), 2)
  | .sthu _ ra d => some (true, (s.eaD ra d), 2)
  | .sthux _ ra rb _ => some (true, (s.eaX ra rb), 2)
  | .sthx _ ra rb _ => some (true, (s.eaX ra rb), 2)
  | .stw _ ra d => some (true, (s.eaD ra d), 4)
  | .stwu _ ra d => some (true, (s.eaD ra d), 4)
  | .stwux _ ra rb _ => some (true, (s.eaX ra rb), 4)
  | .stwx _ ra rb _ => some (true, (s.eaX ra rb), 4)
  | .lhbrx _ ra rb _ => some (false, (s.eaX ra rb), 2)
  | .lwbrx _ ra rb _ => some (false, (s.eaX ra rb), 4)
  | .sthbrx _ ra rb _ => some (true, (s.eaX ra rb), 2)
  | .stwbrx _ ra rb _ => some (true, (s.eaX ra rb), 4)
  | .lmw rt ra d => some (false, s.eaD ra d, 4 * (32 - rt.toNat))
  | .stmw rs ra d => some (true, s.eaD ra d, 4 * (32 - rs.toNat))
  | .lswi _ ra nb _ => some (false, s.ra0 ra, stringCount nb)
  | .lswx _ ra rb _ => some (false, s.eaX ra rb, xerTbc s.xer)
  | .stswi _ ra nb _ => some (true, s.ra0 ra, stringCount nb)
  | .stswx _ ra rb _ => some (true, s.eaX ra rb, xerTbc s.xer)
  | .lwarx _ ra rb _ => some (false, s.eaX ra rb, 4)
  | .stwcx _ ra rb => some (true, s.eaX ra rb, 4)
  | .add _ _ _ _ _ => none
  | .addc _ _ _ _ _ => none
  | .adde _ _ _ _ _ => none
  | .addi _ _ _ => none
  | .addic _ _ _ => none
  | .addicRc _ _ _ => none
  | .addis _ _ _ => none
  | .addme _ _ _ _ => none
  | .addze _ _ _ _ => none
  | .divw _ _ _ _ _ => none
  | .divwu _ _ _ _ _ => none
  | .mulhw _ _ _ _ => none
  | .mulhwu _ _ _ _ => none
  | .mulli _ _ _ => none
  | .mullw _ _ _ _ _ => none
  | .neg _ _ _ _ => none
  | .subf _ _ _ _ _ => none
  | .subfc _ _ _ _ _ => none
  | .subfe _ _ _ _ _ => none
  | .subfic _ _ _ => none
  | .subfme _ _ _ _ => none
  | .subfze _ _ _ _ => none
  | .macchw _ _ _ _ _ => none
  | .macchws _ _ _ _ _ => none
  | .macchwsu _ _ _ _ _ => none
  | .macchwu _ _ _ _ _ => none
  | .machhw _ _ _ _ _ => none
  | .machhws _ _ _ _ _ => none
  | .machhwsu _ _ _ _ _ => none
  | .machhwu _ _ _ _ _ => none
  | .maclhw _ _ _ _ _ => none
  | .maclhws _ _ _ _ _ => none
  | .maclhwsu _ _ _ _ _ => none
  | .maclhwu _ _ _ _ _ => none
  | .nmacchw _ _ _ _ _ => none
  | .nmacchws _ _ _ _ _ => none
  | .nmachhw _ _ _ _ _ => none
  | .nmachhws _ _ _ _ _ => none
  | .nmaclhw _ _ _ _ _ => none
  | .nmaclhws _ _ _ _ _ => none
  | .mulchw _ _ _ _ => none
  | .mulchwu _ _ _ _ => none
  | .mulhhw _ _ _ _ => none
  | .mulhhwu _ _ _ _ => none
  | .mullhw _ _ _ _ => none
  | .mullhwu _ _ _ _ => none
  | .and _ _ _ _ => none
  | .andc _ _ _ _ => none
  | .andi _ _ _ => none
  | .andis _ _ _ => none
  | .cntlzw _ _ _ => none
  | .eqv _ _ _ _ => none
  | .extsb _ _ _ => none
  | .extsh _ _ _ => none
  | .nand _ _ _ _ => none
  | .nor _ _ _ _ => none
  | .or _ _ _ _ => none
  | .orc _ _ _ _ => none
  | .ori _ _ _ => none
  | .oris _ _ _ => none
  | .xor _ _ _ _ => none
  | .xori _ _ _ => none
  | .xoris _ _ _ => none
  | .cmp _ _ _ _ => none
  | .cmpi _ _ _ => none
  | .cmpl _ _ _ _ => none
  | .cmpli _ _ _ => none
  | .b _ _ _ => none
  | .bc _ _ _ _ _ => none
  | .bcctr _ _ _ => none
  | .bclr _ _ _ => none
  | .crand _ _ _ _ => none
  | .crandc _ _ _ _ => none
  | .creqv _ _ _ _ => none
  | .crnand _ _ _ _ => none
  | .crnor _ _ _ _ => none
  | .cror _ _ _ _ => none
  | .crorc _ _ _ _ => none
  | .crxor _ _ _ _ => none
  | .mcrf _ _ _ => none
  | .rlwimi _ _ _ _ _ _ => none
  | .rlwinm _ _ _ _ _ _ => none
  | .rlwnm _ _ _ _ _ _ => none
  | .slw _ _ _ _ => none
  | .sraw _ _ _ _ => none
  | .srawi _ _ _ _ => none
  | .srw _ _ _ _ => none
  | .dcba _ _ _ => none
  | .dcbf ra rb _ => some (false, s.eaX ra rb, 1)
  | .dcbi ra rb _ => some (true, s.eaX ra rb, 1)
  | .dcbst ra rb _ => some (false, s.eaX ra rb, 1)
  | .dcbt _ _ _ => none
  | .dcbtst _ _ _ => none
  | .dcbz ra rb _ => some (true, s.eaX ra rb, 1)
  | .dccci ra rb _ => some (true, s.eaX ra rb, 1)
  | .dcread _ ra rb _ => some (false, s.eaX ra rb, 1)
  | .icbi ra rb _ => some (false, s.eaX ra rb, 1)
  | .icbt _ _ _ => none
  | .iccci _ _ _ => none
  | .icread ra rb _ => some (false, s.eaX ra rb, 1)
  | .mfmsr _ _ => none
  | .mtmsr _ _ => none
  | .rfci _ => none
  | .rfi _ => none
  | .wrtee _ _ => none
  | .wrteei _ _ => none
  | .tlbia _ => none
  | .tlbre _ _ _ _ => none
  | .tlbsync _ => none
  | .tlbsx _ _ _ _ => none
  | .tlbwe _ _ _ _ => none
  | .eieio _ => none
  | .isync _ => none
  | .mcrxr _ _ => none
  | .mfcr _ _ => none
  | .mfdcr _ _ _ => none
  | .mtcrf _ _ _ => none
  | .mtdcr _ _ _ => none
  | .sync _ => none
  | .mfspr _ _ _ => none
  | .mftb _ _ _ => none
  | .mtspr _ _ _ => none
  | .sc => none
  | .tw _ _ _ _ => none
  | .twi _ _ _ => none

/-- The addresses a reference presents: the first byte's, then that of each following aligned word it touches (R671: "EAs
are always generated within a single aligned word of memory"). -/
def comparedAddresses (ea : Word) (n : Nat) : List Word :=
  if n = 0 then [] else ea :: (byteAddresses ea n).tail.filter fun a => !misaligned a

/-- How many low-order address bits a DAC size code ignores: 0, 1, 2, 5 (10_state.md R91). -/
def dacIgnored (size : BitVec 2) : Nat := if size = 0 then 0 else if size = 1 then 1 else if size = 2 then 2 else 5

/-- Whether an address hits a DAC register. -/
def dacHit (dac : Word) (size : BitVec 2) (a : Word) : Bool := a >>> dacIgnored size == dac >>> dacIgnored size

/-- Whether an instruction completed: it took no interrupt, or is sc. -/
def State.completed (t : State) : Bool := t.entry == none || t.entry == some .systemCall

/-! ## Data value compare (R671) -/

/-- What a storage reference moves. -/
inductive Transfer where
  /-- No data. -/
  | nothing
  /-- A cache operation: which data it is compared by is not said. -/
  | untold
  | load (rt : Reg)
  | store (v : Word)
  | loadWords (rt ra : Reg)
  | storeWords (rs : Reg)
  | loadString (rt : Reg) (bases : List Reg)
  | storeString (rs : Reg)
  | zeroBlock

/-- What each instruction moves. -/
def transfer (i : Instr) (s : State) : Transfer :=
  match i with
  | .lbz rt _ _ | .lbzu rt _ _ | .lha rt _ _ | .lhau rt _ _ | .lhz rt _ _ | .lhzu rt _ _
  | .lwz rt _ _ | .lwzu rt _ _ => .load rt
  | .lbzux rt _ _ _ | .lbzx rt _ _ _ | .lhaux rt _ _ _ | .lhax rt _ _ _ | .lhzux rt _ _ _ | .lhzx rt _ _ _
  | .lwzux rt _ _ _ | .lwzx rt _ _ _ | .lhbrx rt _ _ _ | .lwbrx rt _ _ _ | .lwarx rt _ _ _ => .load rt
  | .stb rs _ _ | .stbu rs _ _ | .sth rs _ _ | .sthu rs _ _ | .stw rs _ _ | .stwu rs _ _ => .store (s.reg rs)
  | .stbux rs _ _ _ | .stbx rs _ _ _ | .sthux rs _ _ _ | .sthx rs _ _ _ | .stwux rs _ _ _ | .stwx rs _ _ _ => .store (s.reg rs)
  | .sthbrx rs _ _ _ => .store (byteReversed 2 (s.reg rs))
  | .stwbrx rs _ _ _ => .store (byteReversed 4 (s.reg rs))
  | .stwcx rs _ _ => if s.reserve then .store (s.reg rs) else .nothing
  | .lmw rt ra _ => .loadWords rt ra
  | .stmw rs _ _ => .storeWords rs
  | .lswi rt ra _ _ => .loadString rt [ra]
  | .lswx rt ra rb _ => .loadString rt [ra, rb]
  | .stswi rs _ _ _ | .stswx rs _ _ _ => .storeString rs
  | .dcbz .. => .zeroBlock
  | .dcbf .. | .dcbi .. | .dcbst .. | .dccci .. | .dcread .. | .icbi .. | .icread .. => .untold
  | .add .. | .addc .. | .adde .. | .addi .. | .addic .. | .addicRc .. | .addis .. | .addme .. | .addze ..
  | .divw .. | .divwu .. | .mulhw .. | .mulhwu .. | .mulli .. | .mullw .. | .neg .. | .subf .. | .subfc ..
  | .subfe .. | .subfic .. | .subfme .. | .subfze .. | .macchw .. | .macchws .. | .macchwsu .. | .macchwu ..
  | .machhw .. | .machhws .. | .machhwsu .. | .machhwu .. | .maclhw .. | .maclhws .. | .maclhwsu ..
  | .maclhwu .. | .nmacchw .. | .nmacchws .. | .nmachhw .. | .nmachhws .. | .nmaclhw .. | .nmaclhws ..
  | .mulchw .. | .mulchwu .. | .mulhhw .. | .mulhhwu .. | .mullhw .. | .mullhwu .. | .and .. | .andc ..
  | .andi .. | .andis .. | .cntlzw .. | .eqv .. | .extsb .. | .extsh .. | .nand .. | .nor .. | .or .. | .orc ..
  | .ori .. | .oris .. | .xor .. | .xori .. | .xoris .. | .cmp .. | .cmpi .. | .cmpl .. | .cmpli .. | .b ..
  | .bc .. | .bcctr .. | .bclr .. | .crand .. | .crandc .. | .creqv .. | .crnand .. | .crnor .. | .cror ..
  | .crorc .. | .crxor .. | .mcrf .. | .rlwimi .. | .rlwinm .. | .rlwnm .. | .slw .. | .sraw .. | .srawi ..
  | .srw .. | .dcba .. | .dcbt .. | .dcbtst .. | .icbt .. | .iccci .. | .mfmsr .. | .mtmsr .. | .rfci ..
  | .rfi .. | .wrtee .. | .wrteei .. | .tlbia .. | .tlbre .. | .tlbsync .. | .tlbsx .. | .tlbwe .. | .eieio ..
  | .isync .. | .mcrxr .. | .mfcr .. | .mfdcr .. | .mtcrf .. | .mtdcr .. | .sync .. | .mfspr .. | .mftb ..
  | .mtspr .. | .tw .. | .twi .. | .sc => .nothing

/-- The bytes that a reference of n bytes at ea moves, with their addresses: as read, or as stored. -/
def Transfer.bytes (s : State) (ea : Word) (n : Nat) : Transfer → List (Word × Byte)
  | .nothing | .untold => []
  | .load _ => (List.range n).map fun k => (ea + BitVec.ofNat 32 k, s.loadByte s.hostLog k ea n k)
  | .store v => s.operandBytes ea n v
  | .loadWords rt ra =>
    let ws := loadedWords rt ra ea
    ws.flatMap fun p => (List.range 4).map fun k => (p.2 + BitVec.ofNat 32 k,
      s.loadByte (s.logLoads s.hostLog (wordsParts (ws.filter (·.1 < p.1)))) (4 * (p.1 - rt.toNat) + k) p.2 4 k)
  | .storeWords rs => (multipleWords rs ea).flatMap fun p => s.operandBytes p.2 4 (s.reg (BitVec.ofNat 5 p.1))
  | .loadString rt bases =>
    let ks := stringBytes rt (bases.map (·.toNat)) n
    ks.map fun k => (ea + BitVec.ofNat 32 k, s.stringByte ea ks k)
  | .storeString rs => s.stringStoreBytes rs ea n
  | .zeroBlock => (byteAddresses (blockBase ea) 32).map fun a => (a, 0)

/-- Whether the operand, or each word of a multiple, is not naturally aligned (20_memory.md R131). -/
def Transfer.isMisaligned (ea : Word) (n : Nat) : Transfer → Bool
  | .load _ | .store _ => ea.toNat % n != 0
  | .loadWords _ _ | .storeWords _ => misaligned ea
  | .nothing | .untold | .loadString _ _ | .storeString _ | .zeroBlock => false

/-- The registers of a load that take bytes from number c of the operand on. -/
def Transfer.targetsPast (c : Nat) : Transfer → List Reg
  | .load rt => [rt]
  | .loadWords rt _ => ((List.range (32 - rt.toNat)).filter fun j => c < 4 * j + 4).map fun j => rt + BitVec.ofNat 5 j
  | .nothing | .untold | .store _ | .storeWords _ | .loadString _ _ | .storeString _ | .zeroBlock => []

/-- One of the two data compares, for loads or for stores: its registers and its fields of DBCR1 (10_state.md R91, R94, R95). -/
structure DataCompare where
  enabled : Bool
  address : Word
  size : BitVec 2
  value : Word
  mode : BitVec 2
  bytes : BitVec 4

/-- Data compare 1. -/
def State.compare1 (s : State) (store : Bool) : DataCompare where
  enabled := bitOf s.dbcr1 (if store then 2 else 0)
  address := s.dac1
  size := s.dbcr1.extractLsb' 26 2
  value := s.dvc1
  mode := s.dbcr1.extractLsb' 18 2
  bytes := s.dbcr1.extractLsb' 12 4

/-- Data compare 2. -/
def State.compare2 (s : State) (store : Bool) : DataCompare where
  enabled := bitOf s.dbcr1 (if store then 3 else 1)
  address := s.dac2
  size := s.dbcr1.extractLsb' 24 2
  value := s.dvc2
  mode := s.dbcr1.extractLsb' 16 2
  bytes := s.dbcr1.extractLsb' 8 4

/-- DVCn takes part: the compare is enabled, with a byte of its value. DESIGN CHOICE (log entry 36; unsafe): a mode DBCR1[DV1M,
DV2M] with no byte enabled makes no value compare, and the data address compare stands alone. -/
def DataCompare.comparesValue (c : DataCompare) : Bool := c.enabled && c.bytes != 0

/-- Whether the compare of an access to an aligned word by value is open: the mode is 00, "Undefined" (10_state.md R91), or a
cache operation moves no data that R671 names. -/
def DataCompare.isOpen (c : DataCompare) (tr : Transfer) : Bool :=
  c.comparesValue && (c.mode == 0 || (match tr with
    | .untold => true
    | .nothing | .load _ | .store _ | .loadWords _ _ | .storeWords _ | .loadString _ _ | .storeString _ | .zeroBlock => false))

/-- Whether the bytes moved in the aligned word of `a` match the value in the enabled bytes: 01 all of them, 10 one, 11 all
those of a halfword that has one (R671, 10_state.md R91). DESIGN CHOICE (log entry 38; unsafe): byte k of the value belongs to byte k
of the aligned word in storage, in either byte order; a byte that is not moved does not match. -/
def DataCompare.valueMatches (c : DataCompare) (moved : List (Word × Byte)) (a : Word) : Bool :=
  let same (k : Nat) : Bool :=
    moved.contains ((a &&& 0xFFFFFFFC) + BitVec.ofNat 32 k, c.value.extractLsb' (24 - 8 * k) 8)
  let all (ks : List Nat) : Bool := ks.all fun k => !c.bytes.getMsbD k || same k
  let any (ks : List Nat) : Bool := ks.any fun k => c.bytes.getMsbD k
  if c.mode = 1 then all [0, 1, 2, 3]
  else if c.mode = 2 then [0, 1, 2, 3].any fun k => c.bytes.getMsbD k && same k
  else (any [0, 1] && all [0, 1]) || (any [2, 3] && all [2, 3])

/-- Whether an access hits: its address, in a range if one is chosen, and its value where DVCn takes part; an open compare by
value is the free bit `free`. -/
def DataCompare.hits (c : DataCompare) (range : Option (Word → Bool)) (tr : Transfer) (moved : List (Word × Byte)) (free : Bool)
    (a : Word) : Bool :=
  c.enabled && (match range with
    | some r => r a
    | none => dacHit c.address c.size a)
    && (!c.comparesValue || (if c.isOpen tr then free else c.valueMatches moved a))

/-- A data access under the compares: direction, address, length, and what it moves. -/
structure DataAccess where
  store : Bool
  ea : Word
  n : Nat
  moves : Transfer

/-- The access of an instruction, if it makes one. -/
def dataAccess (i : Instr) (s : State) : Option DataAccess :=
  (dataReference i s).map fun r => ⟨r.1, r.2.1, r.2.2, transfer i s⟩

/-- The hits of data compares 1 and 2, for each address the access presents. Open compares are free values of `t`. DESIGN CHOICE
(log entry 36; unsafe): in a range DBCR1[D1S, D2S] do not apply: every bit of the address is compared. -/
def State.dataHits (s t : State) (x : DataAccess) : List (Bool × Bool) :=
  let range : Option (Word → Bool) :=
    if bitOf s.dbcr1 8 then some (inRange (bitOf s.dbcr1 9) s.dac1 s.dac2) else none
  let moved := x.moves.bytes s x.ea x.n
  (comparedAddresses x.ea x.n).zipIdx.map fun p =>
    ((s.compare1 x.store).hits range x.moves moved ((t.free (2 * p.2)).getLsbD 0) p.1,
     (s.compare2 x.store).hits range x.moves moved ((t.free (2 * p.2 + 1)).getLsbD 0) p.1)

/-- The number of the part of a misaligned access whose value compare hits first: the parts after it are not performed (R671:
"The second part of an instruction is not performed if the first part of the compare hits"). DESIGN CHOICE (log entry 38;
unsafe): a part is what the access has in one aligned word, and it stops only where the event interrupts, with MSR[DE] = 1. -/
def State.stopPart (s t : State) (x : DataAccess) : Option Nat :=
  if s.internalDebug && s.deBit && x.moves.isMisaligned x.ea x.n then
    (s.dataHits t x).findIdx? fun h =>
      (h.1 && (s.compare1 x.store).comparesValue) || (h.2 && (s.compare2 x.store).comparesValue)
  else none

/-- The DBSR bits of the data compares that an instruction hits, of the parts that are performed. DESIGN CHOICE (log entry 36;
unsafe): a stwcx. that does not store and the skipped words of lmw, lswi and lswx hit by address as well. -/
def dacEvents (i : Instr) (s t : State) : Word :=
  match dataAccess i s with
  | none => 0
  | some x =>
    let hits := match s.stopPart t x with
      | some p => (s.dataHits t x).take (p + 1)
      | none => s.dataHits t x
    (if hits.any (·.1) then bitMask (if x.store then 8 else 7) else 0)
      ||| (if hits.any (·.2) then bitMask (if x.store then 10 else 9) else 0)

/-- Whether a host access is one to these real addresses. -/
def accessIsAt (ras : List Word) : HostAccess → Bool
  | .load ra _ => ras.contains ra
  | .store ra _ => ras.contains ra
  | .dcrRead _ | .dcrWrite _ _ => false

/-- `t`, the end of an access that began in `s`, but that the bytes from number c on are not accessed: storage and the devices
are as before there. DESIGN CHOICE (log entry 38; unsafe): the registers that would take them are free values, the rest of the
instruction is done. -/
def State.withoutBytesFrom (s t : State) (x : DataAccess) (c : Nat) : State :=
  let ras := ((byteAddresses x.ea x.n).drop c).map (s.realData x.store)
  State.freeRegs { t with
    mem := if x.store then ras.foldl (fun m ra => Memory.write m ra.toNat (Memory.read s.mem ra.toNat)) t.mem else t.mem
    hostLog := (t.hostLog.take (t.hostLog.length - s.hostLog.length)).filter (fun h => !accessIsAt ras h) ++ s.hostLog }
    (x.moves.targetsPast c)

/-- The free values that the open compares of an access draw. -/
def State.compareDraws (s : State) (x : DataAccess) : Nat :=
  if (s.compare1 x.store).isOpen x.moves || (s.compare2 x.store).isOpen x.moves then 2 * (comparedAddresses x.ea x.n).length
  else 0

/-- The state an instruction leaves under the data compares, from `t`, the one it would leave without. -/
def underCompares (i : Instr) (s t : State) : State :=
  match dataAccess i s with
  | none => t
  | some x =>
    if s.internalDebug && t.completed then
      let drawn := t.drawn (s.compareDraws x)
      match s.stopPart t x with
      | none => drawn
      | some p =>
        match (comparedAddresses x.ea x.n)[p + 1]? with
        | none => drawn
        | some a => s.withoutBytesFrom drawn x (a - x.ea).toNat
    else t

/-! ## What a step does with the events -/

/-- Events before an instruction: with MSR[DE] = 1 the Debug interrupt at its address in its place; else they are recorded
and the instruction goes on (R676). -/
def beforeInstruction (events : Word) (s : State) (go : State → Result) : Result :=
  if !s.internalDebug || events == 0 then go s
  else if s.deBit then .next (debugInterrupt s.pc (recordDebugEvents events s))
  else go (recordDebugEvents events s)

/-- DBSR[EDE] after a noncritical interrupt, if the event is enabled (R671) in the state the interrupt leaves (DESIGN CHOICE,
log entry 36; unsafe). -/
def recordException (t : State) : State :=
  match t.entry with
  | none => t
  | some k => if t.internalDebug && bitOf t.dbcr0 6 && !k.critical then recordDebugEvents (bitMask 2) t else t

/-- Events after an instruction: the data address compares and the completion of one that completed, then the exception
event. They are recorded; the Debug interrupt comes at the next boundary (R676). Completion is not recorded with DE = 0. DESIGN
CHOICE (log entry 36; unsafe): DBCR0 and the MSR are read as the instruction left them, so an mtspr DBCR0 or mtmsr goes by what it
wrote itself. -/
def afterInstruction (dac : Word) (t : State) : State :=
  let t1 :=
    if t.internalDebug && t.completed then
      recordDebugEvents (dac ||| (if bitOf t.dbcr0 4 && t.deBit then bitMask 0 else 0)) t
    else t
  recordException t1

/-- The unconditional event from the host (R671). DESIGN CHOICE (log entry 36; unsafe): in external debug mode or debug wait
mode, as with no debug mode, it is neither recorded nor refused: it has no enable bit for U6 to refuse. -/
def recordUnconditional (active : Bool) (s : State) : State :=
  if active && s.internalDebug then recordDebugEvents (bitMask 4) s else s

end Sys2Proof.Machine
end

