-- ==== Sys2Proof/Machine/Reset.lean ====
section
/-! DEFINITION. A reset while the machine runs: mtspr DBCR0, the second watchdog time-out, the host
(70_reset_and_hazards.md R701 to R704, 10_state.md R119). -/
namespace Sys2Proof.Machine

/-- The code of a reset type in DBSR[MRR], TCR[WRC], TSR[WRS] and DBCR0[RST] (R701). -/
def ResetType.code : ResetType → BitVec 2
  | .core => 1
  | .chip => 2
  | .system => 3

/-- The reset type a nonzero code selects (R701). -/
def resetTypeOf (c : BitVec 2) : Option ResetType :=
  if c = 1 then some .core else if c = 2 then some .chip else if c = 3 then some .system else none

/-- A TLB entry of three free values: reset leaves the TLB unspecified, V included (R119). -/
def State.freeTlbEntry (s : State) (k : Nat) : TlbEntry where
  epn := (s.free k).extractLsb' 10 22
  size := (s.free k).extractLsb' 7 3
  v := bitOf (s.free k) 25
  e := bitOf (s.free k) 26
  u0 := bitOf (s.free k) 27
  tid := (s.free (k + 2)).extractLsb' 0 8
  rpn := (s.free (k + 1)).extractLsb' 10 22
  ex := bitOf (s.free (k + 1)) 22
  wr := bitOf (s.free (k + 1)) 23
  zsel := (s.free (k + 1)).extractLsb' 4 4
  w := bitOf (s.free (k + 1)) 28
  i := bitOf (s.free (k + 1)) 29
  m := bitOf (s.free (k + 1)) 30
  g := bitOf (s.free (k + 1)) 31

/-- Every register takes the value of R119; what R119 leaves unspecified becomes a free value of its own; storage and what
belongs to the chip or the host stay (D2). `watchdog` is the TCR[WRC] of a watchdog reset, which TSR[WRS] keeps. -/
def resetMachine (type : ResetType) (watchdog : Option (BitVec 2)) (s : State) : State :=
  let wrs : Word := match watchdog with
    | some c => c.setWidth 32 <<< 28
    | none => s.tsr &&& 0x30000000
  { s with
    gpr := Vector.ofFn fun i : Fin 32 => s.free i.val
    pc := s.resetVector
    cr := s.free 32
    xer := s.free 33 &&& xerMask
    lr := s.free 34
    ctr := s.free 35
    msr := 0
    srr0 := s.free 36 &&& srrMask
    srr1 := s.free 37
    srr2 := s.free 38 &&& srrMask
    srr3 := s.free 39
    sprg := Vector.ofFn fun i : Fin 8 => s.free (40 + i.val)
    usprg0 := s.free 48
    evpr := s.free 49 &&& evprMask
    esr := 0
    dear := s.free 50
    tbu := s.free 51
    tbl := s.free 52
    pit := s.free 53
    pitReload := s.free 54
    tcr := 0
    tsr := wrs ||| (s.free 55 &&& 0x0C000000)
    pid := s.free 56 &&& pidMask
    zpr := s.free 57
    dccr := 0
    iccr := 0
    dcwr := 0
    sgr := 0xFFFFFFFF
    sler := 0
    su0r := 0
    ccr0 := 0x00700000
    icdbdr := s.free 58
    dbcr0 := 0
    dbcr1 := 0
    dbsr := (s.free 59 &&& 0xFFFC0000) ||| (type.code.setWidth 32 <<< 8)
    iac1 := s.free 60 &&& iacMask
    iac2 := s.free 61 &&& iacMask
    iac3 := s.free 62 &&& iacMask
    iac4 := s.free 63 &&& iacMask
    dac1 := s.free 64
    dac2 := s.free 65
    dvc1 := s.free 66
    dvc2 := s.free 67
    reserve := false
    tlb := Vector.ofFn fun i : Fin 64 => s.freeTlbEntry (68 + 3 * i.val)
    freeCount := s.freeCount + 260
    entry := none }

end Sys2Proof.Machine
end

