-- ==== Sys2Proof/Machine/Timers.lean ====
section
/-! DEFINITION. The time base, the PIT, the FIT and the watchdog (60_exceptions.md R660 to R664). -/
namespace Sys2Proof.Machine

/-- The TBL bit the FIT watches: 23, 19, 15, 11 by TCR[FP] (R662). -/
def fitBit (tcr : Word) : Nat := 23 - 4 * (tcr.extractLsb' 24 2).toNat

/-- The TBL bit the watchdog watches: 15, 11, 7, 3 by TCR[WP] (R663). -/
def watchdogBit (tcr : Word) : Nat := 15 - 4 * (tcr.extractLsb' 30 2).toNat

/-- Whether a bit goes 0 to 1. -/
def rises (old new : Word) (i : Nat) : Bool := !bitOf old i && bitOf new i

/-- DBCR0[FT] with a debug event recorded in DBSR freezes the timers: DEDUCED (log entry 31; unsafe) from "Freeze timers on
debug event" (R660, 10_state.md R90). DESIGN CHOICE (log entry 31; unsafe): an event bit that stands in DBSR freezes them whatever the
debug modes are, so with DBCR0[IDM] = DBCR0[EDM] = MSR[DWE] = 0 as well, where D18 says that no debug event has any effect. -/
def State.timersFrozen (s : State) : Bool := bitOf s.dbcr0 31 && s.dbsr &&& debugEventMask != 0

/-- The time base advances by one modulo 2^64 (R660). -/
def tickTimeBase (s : State) : State :=
  let tb : BitVec 64 := (s.tbu ++ s.tbl) + 1
  { s with tbu := tb.extractLsb' 32 32, tbl := tb.extractLsb' 0 32 }

/-- The FIT event (R662). -/
def tickFit (old : Word) (s : State) : State :=
  if rises old s.tbl (fitBit s.tcr) then { s with tsr := s.tsr ||| bitMask 5 } else s

/-- The PIT: stopped at 0, counting down, or at 1 the event with the reload or 0 (R661, D25). -/
def tickPit (s : State) : State :=
  if s.pit = 0 then s
  else if s.pit = 1 then
    { s with tsr := s.tsr ||| bitMask 4, pit := if bitOf s.tcr 9 then s.pitReload else 0 }
  else { s with pit := s.pit - 1 }

/-- One watchdog time-out: ENW, then WIS, then the reset TCR[WRC] selects (R663). -/
inductive WatchdogAction where
  | enable | interrupt | reset (type : ResetType)  | nothing
deriving DecidableEq, Repr

/-- The table of R663. -/
def State.watchdogAction (s : State) : WatchdogAction :=
  if !bitOf s.tsr 0 then .enable
  else if !bitOf s.tsr 1 then .interrupt
  else match resetTypeOf (s.tcr.extractLsb' 28 2) with
    | some t => .reset t
    | none => .nothing

/-- One tick, in the order of R664: time base, FIT, watchdog, PIT. A watchdog reset ends the tick. -/
def tick (s : State) : State :=
  if s.timersFrozen then s
  else
    let s1 := tickFit s.tbl (tickTimeBase s)
    if rises s.tbl s1.tbl (watchdogBit s1.tcr) then
      match s1.watchdogAction with
      | .enable => tickPit { s1 with tsr := s1.tsr ||| bitMask 0 }
      | .interrupt => tickPit { s1 with tsr := s1.tsr ||| bitMask 1 }
      | .reset t => resetMachine t (some (s1.tcr.extractLsb' 28 2)) s1
      | .nothing => tickPit s1
    else tickPit s1

/-- `n` ticks. -/
def ticks : Nat → State → State
  | 0, s => s
  | n + 1, s => ticks n (tick s)

end Sys2Proof.Machine
end

