-- ==== Sys2Proof/Machine/Async.lean ====
section
/-! DEFINITION. The asynchronous interrupts at an instruction boundary and the wait state (60_exceptions.md R610, R616,
R618, R630, R636, R661 to R663). -/
namespace Sys2Proof.Machine

/-- The input of a step the host supplies nothing for (log entry 5). -/
def HostInput.idle : HostInput := ⟨0, false, false, none, false⟩

/-- The asynchronous interrupts pending and enabled, the highest priority first (R618). -/
def pendingInterrupts (input : HostInput) (s : State) : List Interrupt :=
  (if s.debugPending urgentEventBits then [.debug] else [])
    ++ (if s.ceBit && input.critical then [.criticalInput] else [])
    ++ (if s.ceBit && bitOf s.tsr 1 && bitOf s.tcr 4 then [.watchdog] else [])
    ++ (if s.debugPending debugEventMask then [.debug] else [])
    ++ (if s.eeBit && input.external then [.external] else [])
    ++ (if s.eeBit && bitOf s.tsr 5 && bitOf s.tcr 8 then [.fixedTimer] else [])
    ++ (if s.eeBit && bitOf s.tsr 4 && bitOf s.tcr 5 then [.intervalTimer] else [])

/-- Whether nothing can end the wait state: no interrupt is enabled (R616, D16). -/
def State.waitsForEver (s : State) : Bool := !s.eeBit && !s.ceBit && !(s.internalDebug && s.deBit)

end Sys2Proof.Machine
end

