-- ==== Sys2Proof/Machine/Arithmetic.lean ====
section
/-! DEFINITION. The fixed-point arithmetic instructions (42_arithmetic.md). -/
namespace Sys2Proof.Machine

/-! ## Shared operations -/

/-- RT <- a + b + c; CA if `carrying`, OV and SO if oe, CR0 if rc (R330). -/
def addForm (rt : Reg) (a b : Word) (c carrying oe rc : Bool) (s : State) : Result :=
  let r := a + b + bitWord c
  .next (s.writeResult rt r (if carrying then some (carry a b c) else none) (overflowIf oe (ovfAdd a b r)) rc)

/-- RT <- r, nothing else. -/
def moveForm (rt : Reg) (r : Word) (s : State) : Result := .next (s.writeResult rt r none none false)

/-- The end of a divide: a quotient, or the undefined case in which RT and CR0[LT, GT, EQ] are free values, OV and SO are
set if oe, and CR0[SO] copies the final SO (R340, R341, U4). -/
def divideForm (rt : Reg) (quotient : Option Word) (oe rc : Bool) (s : State) : Result :=
  match quotient with
  | some q => .next (s.writeResult rt q none (overflowIf oe false) rc)
  | none =>
    let xer := xerAfter s.xer none (overflowIf oe true)
    .next { s with
      gpr := s.gpr.set rt.toNat (s.free 0) rt.isLt
      xer := xer
      cr := if rc then withCrField s.cr 0 ((s.free 1).extractLsb' 0 3 ++ BitVec.ofBool (xerSo xer)) else s.cr
      freeCount := s.freeCount + 2
      pc := s.pc + 4 }

/-- The signed quotient, truncated toward zero, where it exists and fits (R340). -/
def signedQuotient (a b : Word) : Option Word :=
  if b = 0 ∨ (a = 0x80000000#32 ∧ b = 0xFFFFFFFF#32) then none else some (BitVec.ofInt 32 (a.toInt.tdiv b.toInt))

/-- The unsigned quotient, where it exists (R341). -/
def unsignedQuotient (a b : Word) : Option Word :=
  if b = 0 then none else some (BitVec.ofNat 32 (a.toNat / b.toNat))

/-- Bits 0:31 of the 64-bit signed product (R342). -/
def highProductSigned (a b : Word) : Word := BitVec.ofInt 32 ((a.toInt * b.toInt) / 2 ^ 32)

/-- Bits 0:31 of the 64-bit unsigned product (R343). -/
def highProductUnsigned (a b : Word) : Word := BitVec.ofNat 32 (a.toNat * b.toNat / 2 ^ 32)

/-- Whether the signed product does not fit in 32 bits (R345). -/
def productOverflows (a b : Word) : Bool := decide ((a * b).toInt ≠ a.toInt * b.toInt)

/-! ## Instructions -/

/-- add (R331). -/
def execAdd (rt ra rb : Reg) (oe rc : Bool) (s : State) : Result :=
  addForm rt (s.reg ra) (s.reg rb) false false oe rc s

/-- addc (R332). -/
def execAddc (rt ra rb : Reg) (oe rc : Bool) (s : State) : Result :=
  addForm rt (s.reg ra) (s.reg rb) false true oe rc s

/-- adde (R333). -/
def execAdde (rt ra rb : Reg) (oe rc : Bool) (s : State) : Result :=
  addForm rt (s.reg ra) (s.reg rb) (xerCa s.xer) true oe rc s

/-- addi (R334). -/
def execAddi (rt ra : Reg) (im : BitVec 16) (s : State) : Result := moveForm rt (s.ra0 ra + sext16 im) s

/-- addic (R335). -/
def execAddic (rt ra : Reg) (im : BitVec 16) (s : State) : Result :=
  addForm rt (s.reg ra) (sext16 im) false true false false s

/-- addic. (R336). -/
def execAddicRc (rt ra : Reg) (im : BitVec 16) (s : State) : Result :=
  addForm rt (s.reg ra) (sext16 im) false true false true s

/-- addis (R337). -/
def execAddis (rt ra : Reg) (im : BitVec 16) (s : State) : Result := moveForm rt (s.ra0 ra + shifted16 im) s

/-- addme (R338). -/
def execAddme (rt ra : Reg) (oe rc : Bool) (s : State) : Result :=
  addForm rt (s.reg ra) 0xFFFFFFFF (xerCa s.xer) true oe rc s

/-- addze (R339). -/
def execAddze (rt ra : Reg) (oe rc : Bool) (s : State) : Result :=
  addForm rt (s.reg ra) 0 (xerCa s.xer) true oe rc s

/-- divw (R340). -/
def execDivw (rt ra rb : Reg) (oe rc : Bool) (s : State) : Result :=
  divideForm rt (signedQuotient (s.reg ra) (s.reg rb)) oe rc s

/-- divwu (R341). -/
def execDivwu (rt ra rb : Reg) (oe rc : Bool) (s : State) : Result :=
  divideForm rt (unsignedQuotient (s.reg ra) (s.reg rb)) oe rc s

/-- mulhw (R342). -/
def execMulhw (rt ra rb : Reg) (rc : Bool) (s : State) : Result :=
  .next (s.writeResult rt (highProductSigned (s.reg ra) (s.reg rb)) none none rc)

/-- mulhwu (R343). -/
def execMulhwu (rt ra rb : Reg) (rc : Bool) (s : State) : Result :=
  .next (s.writeResult rt (highProductUnsigned (s.reg ra) (s.reg rb)) none none rc)

/-- mulli (R344). -/
def execMulli (rt ra : Reg) (im : BitVec 16) (s : State) : Result := moveForm rt (s.reg ra * sext16 im) s

/-- mullw (R345). -/
def execMullw (rt ra rb : Reg) (oe rc : Bool) (s : State) : Result :=
  .next (s.writeResult rt (s.reg ra * s.reg rb) none (overflowIf oe (productOverflows (s.reg ra) (s.reg rb))) rc)

/-- neg (R346). -/
def execNeg (rt ra : Reg) (oe rc : Bool) (s : State) : Result := addForm rt (~~~s.reg ra) 0 true false oe rc s

/-- subf (R347). -/
def execSubf (rt ra rb : Reg) (oe rc : Bool) (s : State) : Result :=
  addForm rt (~~~s.reg ra) (s.reg rb) true false oe rc s

/-- subfc (R348). -/
def execSubfc (rt ra rb : Reg) (oe rc : Bool) (s : State) : Result :=
  addForm rt (~~~s.reg ra) (s.reg rb) true true oe rc s

/-- subfe (R349). -/
def execSubfe (rt ra rb : Reg) (oe rc : Bool) (s : State) : Result :=
  addForm rt (~~~s.reg ra) (s.reg rb) (xerCa s.xer) true oe rc s

/-- subfic (R350). -/
def execSubfic (rt ra : Reg) (im : BitVec 16) (s : State) : Result :=
  addForm rt (~~~s.reg ra) (sext16 im) true true false false s

/-- subfme (R351). -/
def execSubfme (rt ra : Reg) (oe rc : Bool) (s : State) : Result :=
  addForm rt (~~~s.reg ra) 0xFFFFFFFF (xerCa s.xer) true oe rc s

/-- subfze (R352). -/
def execSubfze (rt ra : Reg) (oe rc : Bool) (s : State) : Result :=
  addForm rt (~~~s.reg ra) 0 (xerCa s.xer) true oe rc s

end Sys2Proof.Machine
end

