-- ==== Sys2Proof/Machine/Logical.lean ====
section
/-! DEFINITION. The logical and compare instructions (44_logical_compare.md). -/
namespace Sys2Proof.Machine

/-! ## Shared operations -/

/-- RA <- v, CR0 if rc (R410). -/
def logicalForm (ra : Reg) (v : Word) (rc : Bool) (s : State) : Result := .next (s.writeResult ra v none none rc)

/-- CR field BF <- c, nothing else (R410). -/
def compareForm (bf : BitVec 3) (c : BitVec 4) (nr : Bool) (s : State) : Result :=
  .next ({ s with cr := withCrField s.cr bf c }.finish nr)

/-- The consecutive 0 bits at the most significant end of the low-order n bits (R415). -/
def leadingZeros (x : Word) : Nat → Nat
  | 0 => 0
  | n + 1 => if x.getLsbD n then 0 else leadingZeros x n + 1

/-! ## Logical -/

/-- and (R411). -/
def execAnd (rs ra rb : Reg) (rc : Bool) (s : State) : Result :=
  logicalForm ra (s.reg rs &&& s.reg rb) rc s

/-- andc (R412). -/
def execAndc (rs ra rb : Reg) (rc : Bool) (s : State) : Result :=
  logicalForm ra (s.reg rs &&& ~~~s.reg rb) rc s

/-- andi. (R413). -/
def execAndi (rs ra : Reg) (im : BitVec 16) (s : State) : Result :=
  logicalForm ra (s.reg rs &&& zext16 im) true s

/-- andis. (R414). -/
def execAndis (rs ra : Reg) (im : BitVec 16) (s : State) : Result :=
  logicalForm ra (s.reg rs &&& shifted16 im) true s

/-- cntlzw (R415). -/
def execCntlzw (rs ra : Reg) (rc : Bool) (s : State) : Result :=
  logicalForm ra (BitVec.ofNat 32 (leadingZeros (s.reg rs) 32)) rc s

/-- eqv (R416). -/
def execEqv (rs ra rb : Reg) (rc : Bool) (s : State) : Result :=
  logicalForm ra (~~~(s.reg rs ^^^ s.reg rb)) rc s

/-- extsb (R417). -/
def execExtsb (rs ra : Reg) (rc : Bool) (s : State) : Result :=
  logicalForm ra (((s.reg rs).extractLsb' 0 8).signExtend 32) rc s

/-- extsh (R418). -/
def execExtsh (rs ra : Reg) (rc : Bool) (s : State) : Result :=
  logicalForm ra (((s.reg rs).extractLsb' 0 16).signExtend 32) rc s

/-- nand (R419). -/
def execNand (rs ra rb : Reg) (rc : Bool) (s : State) : Result :=
  logicalForm ra (~~~(s.reg rs &&& s.reg rb)) rc s

/-- nor (R420). -/
def execNor (rs ra rb : Reg) (rc : Bool) (s : State) : Result :=
  logicalForm ra (~~~(s.reg rs ||| s.reg rb)) rc s

/-- or (R421). -/
def execOr (rs ra rb : Reg) (rc : Bool) (s : State) : Result :=
  logicalForm ra (s.reg rs ||| s.reg rb) rc s

/-- orc (R422). -/
def execOrc (rs ra rb : Reg) (rc : Bool) (s : State) : Result :=
  logicalForm ra (s.reg rs ||| ~~~s.reg rb) rc s

/-- ori (R423). -/
def execOri (rs ra : Reg) (im : BitVec 16) (s : State) : Result :=
  logicalForm ra (s.reg rs ||| zext16 im) false s

/-- oris (R424). -/
def execOris (rs ra : Reg) (im : BitVec 16) (s : State) : Result :=
  logicalForm ra (s.reg rs ||| shifted16 im) false s

/-- xor (R425). -/
def execXor (rs ra rb : Reg) (rc : Bool) (s : State) : Result :=
  logicalForm ra (s.reg rs ^^^ s.reg rb) rc s

/-- xori (R426). -/
def execXori (rs ra : Reg) (im : BitVec 16) (s : State) : Result :=
  logicalForm ra (s.reg rs ^^^ zext16 im) false s

/-- xoris (R427). -/
def execXoris (rs ra : Reg) (im : BitVec 16) (s : State) : Result :=
  logicalForm ra (s.reg rs ^^^ shifted16 im) false s

/-! ## Compare -/

/-- cmp (R428). -/
def execCmp (bf : BitVec 3) (ra rb : Reg) (nr : Bool) (s : State) : Result :=
  compareForm bf (compareSigned (s.reg ra) (s.reg rb) s.xer) nr s

/-- cmpi (R429). -/
def execCmpi (bf : BitVec 3) (ra : Reg) (im : BitVec 16) (s : State) : Result :=
  compareForm bf (compareSigned (s.reg ra) (sext16 im) s.xer) false s

/-- cmpl (R430). -/
def execCmpl (bf : BitVec 3) (ra rb : Reg) (nr : Bool) (s : State) : Result :=
  compareForm bf (compareUnsigned (s.reg ra) (s.reg rb) s.xer) nr s

/-- cmpli (R431). -/
def execCmpli (bf : BitVec 3) (ra : Reg) (im : BitVec 16) (s : State) : Result :=
  compareForm bf (compareUnsigned (s.reg ra) (zext16 im) s.xer) false s

end Sys2Proof.Machine
end

