-- ==== Sys2Proof/Machine/Mac.lean ====
section
/-! DEFINITION. The multiply-accumulate and halfword multiply instructions (43_mac_halfword.md). -/
namespace Sys2Proof.Machine

/-! ## Shared operations -/

/-- A signed accumulate: RT <- p + RT modulo 2^32, or at overflow, if `saturate`, the most extreme value of RT's sign;
overflow is (p0 = RT0) and (RT0 differs from the sum's sign) (R371, R373). -/
def accumulateSigned (rt : Reg) (p : Word) (saturate oe rc : Bool) (s : State) : Result :=
  let t := s.reg rt
  let sum := p + t
  let o := ovfAdd p t sum
  let limit : Word := if t.msb then 0x80000000 else 0x7FFFFFFF
  .next (s.writeResult rt (if saturate && o then limit else sum) none (overflowIf oe o) rc)

/-- An unsigned accumulate: overflow is the carry out; a saturating form then writes all ones (R371, R374). -/
def accumulateUnsigned (rt : Reg) (p : Word) (saturate oe rc : Bool) (s : State) : Result :=
  let t := s.reg rt
  let o := carry p t false
  .next (s.writeResult rt (if saturate && o then 0xFFFFFFFF else p + t) none (overflowIf oe o) rc)

/-- A halfword multiply: RT <- r, CR0 if rc (R390). -/
def multiplyForm (rt : Reg) (r : Word) (rc : Bool) (s : State) : Result := .next (s.writeResult rt r none none rc)

/-! ## Instructions -/

/-- macchw (R372). -/
def execMacchw (rt ra rb : Reg) (oe rc : Bool) (s : State) : Result :=
  accumulateSigned rt (signedProduct (lowHalf (s.reg ra)) (highHalf (s.reg rb))) false oe rc s

/-- macchws (R373). -/
def execMacchws (rt ra rb : Reg) (oe rc : Bool) (s : State) : Result :=
  accumulateSigned rt (signedProduct (lowHalf (s.reg ra)) (highHalf (s.reg rb))) true oe rc s

/-- macchwsu (R374). -/
def execMacchwsu (rt ra rb : Reg) (oe rc : Bool) (s : State) : Result :=
  accumulateUnsigned rt (unsignedProduct (lowHalf (s.reg ra)) (highHalf (s.reg rb))) true oe rc s

/-- macchwu (R375). -/
def execMacchwu (rt ra rb : Reg) (oe rc : Bool) (s : State) : Result :=
  accumulateUnsigned rt (unsignedProduct (lowHalf (s.reg ra)) (highHalf (s.reg rb))) false oe rc s

/-- machhw (R376). -/
def execMachhw (rt ra rb : Reg) (oe rc : Bool) (s : State) : Result :=
  accumulateSigned rt (signedProduct (highHalf (s.reg ra)) (highHalf (s.reg rb))) false oe rc s

/-- machhws (R377). -/
def execMachhws (rt ra rb : Reg) (oe rc : Bool) (s : State) : Result :=
  accumulateSigned rt (signedProduct (highHalf (s.reg ra)) (highHalf (s.reg rb))) true oe rc s

/-- machhwsu (R378). -/
def execMachhwsu (rt ra rb : Reg) (oe rc : Bool) (s : State) : Result :=
  accumulateUnsigned rt (unsignedProduct (highHalf (s.reg ra)) (highHalf (s.reg rb))) true oe rc s

/-- machhwu (R379). -/
def execMachhwu (rt ra rb : Reg) (oe rc : Bool) (s : State) : Result :=
  accumulateUnsigned rt (unsignedProduct (highHalf (s.reg ra)) (highHalf (s.reg rb))) false oe rc s

/-- maclhw (R380). -/
def execMaclhw (rt ra rb : Reg) (oe rc : Bool) (s : State) : Result :=
  accumulateSigned rt (signedProduct (lowHalf (s.reg ra)) (lowHalf (s.reg rb))) false oe rc s

/-- maclhws (R381). -/
def execMaclhws (rt ra rb : Reg) (oe rc : Bool) (s : State) : Result :=
  accumulateSigned rt (signedProduct (lowHalf (s.reg ra)) (lowHalf (s.reg rb))) true oe rc s

/-- maclhwsu (R382). -/
def execMaclhwsu (rt ra rb : Reg) (oe rc : Bool) (s : State) : Result :=
  accumulateUnsigned rt (unsignedProduct (lowHalf (s.reg ra)) (lowHalf (s.reg rb))) true oe rc s

/-- maclhwu (R383). -/
def execMaclhwu (rt ra rb : Reg) (oe rc : Bool) (s : State) : Result :=
  accumulateUnsigned rt (unsignedProduct (lowHalf (s.reg ra)) (lowHalf (s.reg rb))) false oe rc s

/-- nmacchw (R384). -/
def execNmacchw (rt ra rb : Reg) (oe rc : Bool) (s : State) : Result :=
  accumulateSigned rt (-signedProduct (lowHalf (s.reg ra)) (highHalf (s.reg rb))) false oe rc s

/-- nmacchws (R385). -/
def execNmacchws (rt ra rb : Reg) (oe rc : Bool) (s : State) : Result :=
  accumulateSigned rt (-signedProduct (lowHalf (s.reg ra)) (highHalf (s.reg rb))) true oe rc s

/-- nmachhw (R386). -/
def execNmachhw (rt ra rb : Reg) (oe rc : Bool) (s : State) : Result :=
  accumulateSigned rt (-signedProduct (highHalf (s.reg ra)) (highHalf (s.reg rb))) false oe rc s

/-- nmachhws (R387). -/
def execNmachhws (rt ra rb : Reg) (oe rc : Bool) (s : State) : Result :=
  accumulateSigned rt (-signedProduct (highHalf (s.reg ra)) (highHalf (s.reg rb))) true oe rc s

/-- nmaclhw (R388). -/
def execNmaclhw (rt ra rb : Reg) (oe rc : Bool) (s : State) : Result :=
  accumulateSigned rt (-signedProduct (lowHalf (s.reg ra)) (lowHalf (s.reg rb))) false oe rc s

/-- nmaclhws (R389). -/
def execNmaclhws (rt ra rb : Reg) (oe rc : Bool) (s : State) : Result :=
  accumulateSigned rt (-signedProduct (lowHalf (s.reg ra)) (lowHalf (s.reg rb))) true oe rc s

/-- mulchw (R390). -/
def execMulchw (rt ra rb : Reg) (rc : Bool) (s : State) : Result :=
  multiplyForm rt (signedProduct (lowHalf (s.reg ra)) (highHalf (s.reg rb))) rc s

/-- mulchwu (R391). -/
def execMulchwu (rt ra rb : Reg) (rc : Bool) (s : State) : Result :=
  multiplyForm rt (unsignedProduct (lowHalf (s.reg ra)) (highHalf (s.reg rb))) rc s

/-- mulhhw (R392). -/
def execMulhhw (rt ra rb : Reg) (rc : Bool) (s : State) : Result :=
  multiplyForm rt (signedProduct (highHalf (s.reg ra)) (highHalf (s.reg rb))) rc s

/-- mulhhwu (R393). -/
def execMulhhwu (rt ra rb : Reg) (rc : Bool) (s : State) : Result :=
  multiplyForm rt (unsignedProduct (highHalf (s.reg ra)) (highHalf (s.reg rb))) rc s

/-- mullhw (R394). -/
def execMullhw (rt ra rb : Reg) (rc : Bool) (s : State) : Result :=
  multiplyForm rt (signedProduct (lowHalf (s.reg ra)) (lowHalf (s.reg rb))) rc s

/-- mullhwu (R395). -/
def execMullhwu (rt ra rb : Reg) (rc : Bool) (s : State) : Result :=
  multiplyForm rt (unsignedProduct (lowHalf (s.reg ra)) (lowHalf (s.reg rb))) rc s

end Sys2Proof.Machine
end

