-- ==== Sys2Proof/Machine/Processor.lean ====
section
/-! DEFINITION. The processor management instructions (49_processor_management.md). -/
namespace Sys2Proof.Machine

/-! ## Special purpose registers (10_state.md R33) -/

/-- What mfspr reads, by SPR number; every other number is unknown (U12). -/
def sprReaders : List (Nat × (State → Word)) :=
  [(0x001, fun s => s.xer), (0x008, fun s => s.lr), (0x009, fun s => s.ctr), (0x01A, fun s => s.srr0),
   (0x01B, fun s => s.srr1), (0x100, fun s => s.usprg0), (0x104, fun s => s.sprg[4]), (0x105, fun s => s.sprg[5]),
   (0x106, fun s => s.sprg[6]), (0x107, fun s => s.sprg[7]), (0x110, fun s => s.sprg[0]), (0x111, fun s => s.sprg[1]),
   (0x112, fun s => s.sprg[2]), (0x113, fun s => s.sprg[3]), (0x114, fun s => s.sprg[4]), (0x115, fun s => s.sprg[5]),
   (0x116, fun s => s.sprg[6]), (0x117, fun s => s.sprg[7]), (0x11F, fun s => s.pvr), (0x3B0, fun s => s.zpr),
   (0x3B1, fun s => s.pid), (0x3B3, fun s => s.ccr0), (0x3B4, fun s => s.iac3), (0x3B5, fun s => s.iac4),
   (0x3B6, fun s => s.dvc1), (0x3B7, fun s => s.dvc2), (0x3B9, fun s => s.sgr), (0x3BA, fun s => s.dcwr),
   (0x3BB, fun s => s.sler), (0x3BC, fun s => s.su0r), (0x3BD, fun s => s.dbcr1), (0x3D3, fun s => s.icdbdr),
   (0x3D4, fun s => s.esr), (0x3D5, fun s => s.dear), (0x3D6, fun s => s.evpr), (0x3D8, fun s => s.tsr),
   (0x3DA, fun s => s.tcr), (0x3DB, fun s => s.pit), (0x3DE, fun s => s.srr2), (0x3DF, fun s => s.srr3),
   (0x3F0, fun s => s.dbsr), (0x3F2, fun s => s.dbcr0), (0x3F4, fun s => s.iac1), (0x3F5, fun s => s.iac2),
   (0x3F6, fun s => s.dac1), (0x3F7, fun s => s.dac2), (0x3FA, fun s => s.dccr), (0x3FB, fun s => s.iccr)]

/-- DBCR0 <- v; a nonzero RST field resets the machine at once (10_state.md R90, 70_reset_and_hazards.md R701 (a)). -/
def writeDbcr0 (v : Word) (s : State) : State :=
  match resetTypeOf (v.extractLsb' 28 2) with
  | some t => resetMachine t none s
  | none => ({ s with dbcr0 := v &&& dbcr0Mask }).advance

/-- What mtspr does, by SPR number, the pc's advance included (R573). PVR and ICDBDR ignore the write (D22). -/
def sprWriters : List (Nat × (Word → State → State)) :=
  [(0x001, fun v s => { s with xer := v &&& xerMask }.advance),
   (0x008, fun v s => { s with lr := v }.advance),
   (0x009, fun v s => { s with ctr := v }.advance),
   (0x01A, fun v s => { s with srr0 := v &&& srrMask }.advance),
   (0x01B, fun v s => { s with srr1 := v }.advance),
   (0x100, fun v s => { s with usprg0 := v }.advance),
   (0x110, fun v s => { s with sprg := s.sprg.set 0 v }.advance),
   (0x111, fun v s => { s with sprg := s.sprg.set 1 v }.advance),
   (0x112, fun v s => { s with sprg := s.sprg.set 2 v }.advance),
   (0x113, fun v s => { s with sprg := s.sprg.set 3 v }.advance),
   (0x114, fun v s => { s with sprg := s.sprg.set 4 v }.advance),
   (0x115, fun v s => { s with sprg := s.sprg.set 5 v }.advance),
   (0x116, fun v s => { s with sprg := s.sprg.set 6 v }.advance),
   (0x117, fun v s => { s with sprg := s.sprg.set 7 v }.advance),
   (0x11C, fun v s => { s with tbl := v }.advance),
   (0x11D, fun v s => { s with tbu := v }.advance),
   (0x11F, fun _ s => s.advance),
   (0x3B0, fun v s => { s with zpr := v }.advance),
   (0x3B1, fun v s => { s with pid := v &&& pidMask }.advance),
   (0x3B3, fun v s => { s with ccr0 := v &&& ccr0Mask }.advance),
   (0x3B4, fun v s => { s with iac3 := v &&& iacMask }.advance),
   (0x3B5, fun v s => { s with iac4 := v &&& iacMask }.advance),
   (0x3B6, fun v s => { s with dvc1 := v }.advance),
   (0x3B7, fun v s => { s with dvc2 := v }.advance),
   (0x3B9, fun v s => { s with sgr := v }.advance),
   (0x3BA, fun v s => { s with dcwr := v }.advance),
   (0x3BB, fun v s => { s with sler := v }.advance),
   (0x3BC, fun v s => { s with su0r := v }.advance),
   (0x3BD, fun v s => { s with dbcr1 := v &&& dbcr1Mask }.advance),
   (0x3D3, fun _ s => s.advance),
   (0x3D4, fun v s => { s with esr := v &&& esrMask }.advance),
   (0x3D5, fun v s => { s with dear := v }.advance),
   (0x3D6, fun v s => { s with evpr := v &&& evprMask }.advance),
   (0x3D8, fun v s => { s with tsr := s.tsr &&& ~~~v }.advance),
   (0x3DA, fun v s => { s with tcr := (v &&& tcrMask) ||| (s.tcr &&& 0x30000000) }.advance),
   (0x3DB, fun v s => { s with pit := v, pitReload := v }.advance),
   (0x3DE, fun v s => { s with srr2 := v &&& srrMask }.advance),
   (0x3DF, fun v s => { s with srr3 := v }.advance),
   (0x3F0, fun v s => { s with dbsr := s.dbsr &&& ~~~v }.advance),
   (0x3F2, fun v s => writeDbcr0 v s),
   (0x3F4, fun v s => { s with iac1 := v &&& iacMask }.advance),
   (0x3F5, fun v s => { s with iac2 := v &&& iacMask }.advance),
   (0x3F6, fun v s => { s with dac1 := v }.advance),
   (0x3F7, fun v s => { s with dac2 := v }.advance),
   (0x3FA, fun v s => { s with dccr := v }.advance),
   (0x3FB, fun v s => { s with iccr := v }.advance)]

/-- The value of an SPR, if the number names a readable one. -/
def State.sprValue (s : State) (n : Nat) : Option Word := (sprReaders.lookup n).map fun f => f s

/-- The machine after writing v to SPR n; an unknown number does nothing (U12). -/
def writeSpr (n : Nat) (v : Word) (s : State) : State :=
  match sprWriters.lookup n with
  | some f => f v s
  | none => s.advance

/-- An SPR number is privileged if bit 0x010 is set (R570). -/
def privilegedSpr (n : BitVec 10) : Bool := n.getLsbD 4

/-- As `privileged`, for a number that may be unprivileged. -/
def privilegedIf (p : Bool) (s : State) (effect : Result) : Result := if p then privileged s effect else effect

/-- RT <- a value, or a free value if there is none (U12, U18). -/
def readForm (rt : Reg) (v : Option Word) (nr : Bool) (s : State) : Result :=
  match v with
  | some v => .next ((s.setReg rt v).finish nr)
  | none => .next (((s.setReg rt (s.free 0)).drawn 1).finish nr)

/-- DCR_SPACE.read: the host's value of a mapped number, none for an unmapped one (R112, D10). -/
def State.dcrValue (s : State) (n : BitVec 10) : Option Word :=
  if s.dcrSpace.contains n then some (Config.dcrValue s.hostLog n) else none

/-- The machine after an access to DCR n, which the host evaluates if the number is mapped (D10). -/
def State.afterDcr (s : State) (n : BitVec 10) (a : HostAccess) : State :=
  if s.dcrSpace.contains n then { s with hostLog := a :: s.hostLog } else s

/-- The bits of CR that FXM selects, field k for FXM bit k (R566). -/
def fieldMask (fxm : BitVec 8) : Word :=
  (List.range 8).foldl (fun m k => if fxm.getMsbD k then m ||| (0xF#32 <<< (28 - 4 * k)) else m) 0

/-! ## Synchronisation -/

/-- eieio (R561): no operation in a model of one agent. -/
def execEieio (nr : Bool) (s : State) : Result := .next (s.finish nr)

/-- isync (R562): no operation where every context change takes effect at once (D14). -/
def execIsync (nr : Bool) (s : State) : Result := .next (s.finish nr)

/-- sync (R568): no operation in a model of one agent. -/
def execSync (nr : Bool) (s : State) : Result := .next (s.finish nr)

/-! ## Condition register moves -/

/-- mcrxr (R563): SO, OV, CA and a 0 go to the field; the three are cleared. -/
def execMcrxr (bf : BitVec 3) (nr : Bool) (s : State) : Result :=
  .next ({ s with
    cr := withCrField s.cr bf (fourBits (xerSo s.xer) (xerOv s.xer) (xerCa s.xer) false)
    xer := s.xer &&& 0x1FFFFFFF }.finish nr)

/-- mfcr (R564). -/
def execMfcr (rt : Reg) (nr : Bool) (s : State) : Result := .next ((s.setReg rt s.cr).finish nr)

/-- mtcrf (R566). -/
def execMtcrf (rs : Reg) (fxm : BitVec 8) (nr : Bool) (s : State) : Result :=
  .next ({ s with cr := (s.reg rs &&& fieldMask fxm) ||| (s.cr &&& ~~~fieldMask fxm) }.finish nr)

/-! ## Device control registers -/

/-- mfdcr (R565): privileged; an unmapped number reads a free value (U18). -/
def execMfdcr (rt : Reg) (dcrn : BitVec 10) (nr : Bool) (s : State) : Result :=
  privileged s (readForm rt (s.dcrValue dcrn) nr (s.afterDcr dcrn (.dcrRead dcrn)))

/-- mtdcr (R567): privileged; an unmapped number is ignored. -/
def execMtdcr (rs : Reg) (dcrn : BitVec 10) (nr : Bool) (s : State) : Result :=
  privileged s (.next ((s.afterDcr dcrn (.dcrWrite dcrn (s.reg rs))).finish nr))

/-! ## Special purpose registers and time base -/

/-- mfspr (R571): privileged by number; an unknown number reads a free value (U12). -/
def execMfspr (rt : Reg) (sprn : BitVec 10) (nr : Bool) (s : State) : Result :=
  privilegedIf (privilegedSpr sprn) s (readForm rt (s.sprValue sprn.toNat) nr s)

/-- mftb (R572): not privileged; a number other than TBL and TBU reads a free value (U12). -/
def execMftb (rt : Reg) (tbrn : BitVec 10) (nr : Bool) (s : State) : Result :=
  readForm rt (if tbrn = 0x10C#10 then some s.tbl else if tbrn = 0x10D#10 then some s.tbu else none) nr s

/-- mtspr (R573): privileged by number. -/
def execMtspr (rs : Reg) (sprn : BitVec 10) (nr : Bool) (s : State) : Result :=
  privilegedIf (privilegedSpr sprn) s (.next ((writeSpr sprn.toNat (s.reg rs) s).markCr0 nr))

/-! ## System call and traps -/

/-- sc (R574). -/
def execSc (s : State) : Result := .next (systemCallInterrupt s)

/-- tw (R575). -/
def execTw (tcond : BitVec 5) (ra rb : Reg) (nr : Bool) (s : State) : Result :=
  if trapCondition tcond (s.reg ra) (s.reg rb) then trap s else .next (s.finish nr)

/-- twi (R576). -/
def execTwi (tcond : BitVec 5) (ra : Reg) (im : BitVec 16) (s : State) : Result :=
  if trapCondition tcond (s.reg ra) (sext16 im) then trap s else .next s.advance

end Sys2Proof.Machine
end

