-- ==== Sys2Proof/Machine/Rotate.lean ====
section
/-! DEFINITION. The rotate and shift instructions (46_rotate_shift.md). -/
namespace Sys2Proof.Machine

/-! ## Shared operations -/

/-- RA <- v, CR0 if rc (R480). -/
def rotateForm (ra : Reg) (v : Word) (rc : Bool) (s : State) : Result := .next (s.writeResult ra v none none rc)

/-- RA <- v, XER[CA] <- ca, CR0 if rc (R485). -/
def shiftAlgebraicForm (ra : Reg) (v : Word) (ca rc : Bool) (s : State) : Result :=
  .next (s.writeResult ra v (some ca) none rc)

/-- The shift count of slw, srw and sraw: bits 26:31 of RB, 0 to 63 (R480). -/
def shiftCount (x : Word) : Nat := (x.extractLsb' 0 6).toNat

/-- XER[CA] of an algebraic right shift by n: a negative operand and a 1 among the bits shifted out (R485). -/
def shiftedOut (x : Word) (n : Nat) : Bool := x.msb && x &&& ~~~(BitVec.allOnes 32 <<< n) != 0

/-! ## Instructions -/

/-- rlwimi (R481). -/
def execRlwimi (rs ra : Reg) (sh mb me : BitVec 5) (rc : Bool) (s : State) : Result :=
  let m := rotateMask mb me
  rotateForm ra (((s.reg rs).rotateLeft sh.toNat &&& m) ||| (s.reg ra &&& ~~~m)) rc s

/-- rlwinm (R482). -/
def execRlwinm (rs ra : Reg) (sh mb me : BitVec 5) (rc : Bool) (s : State) : Result :=
  rotateForm ra ((s.reg rs).rotateLeft sh.toNat &&& rotateMask mb me) rc s

/-- rlwnm (R483): the count is bits 27:31 of RB. -/
def execRlwnm (rs ra rb : Reg) (mb me : BitVec 5) (rc : Bool) (s : State) : Result :=
  rotateForm ra ((s.reg rs).rotateLeft ((s.reg rb).extractLsb' 0 5).toNat &&& rotateMask mb me) rc s

/-- slw (R484): counts of 32 to 63 give 0. -/
def execSlw (rs ra rb : Reg) (rc : Bool) (s : State) : Result :=
  rotateForm ra (s.reg rs <<< shiftCount (s.reg rb)) rc s

/-- sraw (R485): counts of 32 to 63 give the sign in every bit. -/
def execSraw (rs ra rb : Reg) (rc : Bool) (s : State) : Result :=
  shiftAlgebraicForm ra ((s.reg rs).sshiftRight (shiftCount (s.reg rb))) (shiftedOut (s.reg rs) (shiftCount (s.reg rb))) rc s

/-- srawi (R486). -/
def execSrawi (rs ra : Reg) (sh : BitVec 5) (rc : Bool) (s : State) : Result :=
  shiftAlgebraicForm ra ((s.reg rs).sshiftRight sh.toNat) (shiftedOut (s.reg rs) sh.toNat) rc s

/-- srw (R487): counts of 32 to 63 give 0. -/
def execSrw (rs ra rb : Reg) (rc : Bool) (s : State) : Result :=
  rotateForm ra (s.reg rs >>> shiftCount (s.reg rb)) rc s

end Sys2Proof.Machine
end

