-- ==== Sys2Proof/Machine/System.lean ====
section
/-! DEFINITION. The interrupt control and TLB management instructions (48_interrupt_control_tlb.md). All are privileged
(R530). -/
namespace Sys2Proof.Machine

/-! ## TLB words (R541, R544) -/

/-- TLBHI: EPN, SIZE, V, E, U0, four 0 bits. -/
def TlbEntry.hiWord (t : TlbEntry) : Word :=
  t.epn ++ t.size ++ BitVec.ofBool t.v ++ BitVec.ofBool t.e ++ BitVec.ofBool t.u0 ++ 0#4

/-- TLBLO: RPN, EX, WR, ZSEL, W, I, M, G. -/
def TlbEntry.loWord (t : TlbEntry) : Word :=
  t.rpn ++ BitVec.ofBool t.ex ++ BitVec.ofBool t.wr ++ t.zsel ++ BitVec.ofBool t.w ++ BitVec.ofBool t.i
    ++ BitVec.ofBool t.m ++ BitVec.ofBool t.g

/-- An entry with TLBHI and TID written (R544). -/
def TlbEntry.withHi (t : TlbEntry) (v : Word) (tid : BitVec 8) : TlbEntry :=
  { t with epn := v.extractLsb' 10 22, size := v.extractLsb' 7 3, v := bitOf v 25, e := bitOf v 26, u0 := bitOf v 27, tid := tid }

/-- An entry with TLBLO written (R544). -/
def TlbEntry.withLo (t : TlbEntry) (v : Word) : TlbEntry :=
  { t with rpn := v.extractLsb' 10 22, ex := bitOf v 22, wr := bitOf v 23, zsel := v.extractLsb' 4 4,
           w := bitOf v 28, i := bitOf v 29, m := bitOf v 30, g := bitOf v 31 }

/-- The TLB index in bits 26:31 of a register (R541). -/
def tlbIndex (x : Word) : BitVec 6 := x.extractLsb' 0 6

/-- UTLB[i]. -/
def State.tlbEntry (s : State) (i : BitVec 6) : TlbEntry := s.tlb[i.toNat]'i.isLt

/-! ## Interrupt control -/

/-- mfmsr (R531). -/
def execMfmsr (rt : Reg) (nr : Bool) (s : State) : Result := privileged s (.next ((s.setReg rt s.msr).finish nr))

/-- mtmsr (R532). -/
def execMtmsr (rs : Reg) (nr : Bool) (s : State) : Result :=
  privileged s (.next ({ s with msr := s.reg rs &&& msrMask }.finish nr))

/-- CR0 after an rfi or rfci with bit 31 set is a free value (U1); the pc comes from the save register. -/
def returnForm (address status : Word) (nr : Bool) (s : State) : Result :=
  privileged s (.next ((returnFromInterrupt address status s).markCr0 nr))

/-- rfci (R533). -/
def execRfci (nr : Bool) (s : State) : Result := returnForm s.srr2 s.srr3 nr s

/-- rfi (R534). -/
def execRfi (nr : Bool) (s : State) : Result := returnForm s.srr0 s.srr1 nr s

/-- wrtee (R535). -/
def execWrtee (rs : Reg) (nr : Bool) (s : State) : Result :=
  privileged s (.next ({ s with msr := withBit s.msr 16 (bitOf (s.reg rs) 16) }.finish nr))

/-- wrteei (R536). -/
def execWrteei (e nr : Bool) (s : State) : Result :=
  privileged s (.next ({ s with msr := withBit s.msr 16 e }.finish nr))

/-! ## TLB management -/

/-- tlbia (R540): every V bit is cleared, the rest of the entries stays. -/
def execTlbia (nr : Bool) (s : State) : Result :=
  privileged s (.next ({ s with tlb := s.tlb.map fun (t : TlbEntry) => { t with v := false } }.finish nr))

/-- Whether WS names neither half of an entry: an invalid form (R541, U2). -/
def invalidWs (ws : BitVec 5) : Bool := ws.extractLsb' 1 4 != 0

/-- tlbre (R541): WS[4] selects TLBLO, or TLBHI with the TID into PID; RT is a free value if WS is invalid (U2). -/
def execTlbre (rt ra : Reg) (ws : BitVec 5) (nr : Bool) (s : State) : Result :=
  let t := s.tlbEntry (tlbIndex (s.reg ra))
  privileged s <|
    let s1 := if ws.getMsbD 4 then s.setReg rt t.loWord else { s with pid := t.tid.setWidth 32 }.setReg rt t.hiWord
    .next ((s1.freeRegs (if invalidWs ws then [rt] else [])).finish nr)

/-- tlbsync (R542): no operation. -/
def execTlbsync (nr : Bool) (s : State) : Result := privileged s (.next (s.finish nr))

/-- tlbsx (R543): RT is the matching index, or a free value (U15); the record form writes whether one was found. -/
def execTlbsx (rt ra rb : Reg) (rc : Bool) (s : State) : Result :=
  let cr0 (found : Bool) : Word :=
    if rc then withCrField s.cr 0 (fourBits false false found (xerSo s.xer)) else s.cr
  privileged s <|
    match s.lookup (s.eaX ra rb) with
    | .hit i _ => .next (({ s with cr := cr0 true } : State).setReg rt (BitVec.ofNat 32 i)).advance
    | .miss => .next ((({ s with cr := cr0 false } : State).setReg rt (s.free 0)).drawn 1).advance
    | .duplicate => .refused .duplicateTlbEntries

/-- tlbwe (R544): WS[4] selects TLBLO, or TLBHI with the TID from PID. -/
def execTlbwe (rs ra : Reg) (ws : BitVec 5) (nr : Bool) (s : State) : Result :=
  let i := tlbIndex (s.reg ra)
  let t := s.tlbEntry i
  let new := if ws.getMsbD 4 then t.withLo (s.reg rs) else t.withHi (s.reg rs) s.pid8
  privileged s (.next ({ s with tlb := s.tlb.set i.toNat new i.isLt }.finish nr))

end Sys2Proof.Machine
end

