-- ==== Sys2Proof/Machine/Dispatch.lean ====
section
/-! DEFINITION. The meaning of each instruction, one arm per constructor. -/
namespace Sys2Proof.Machine

def exec (i : Instr) (s : State) : Host.Outcome State Fault Refusal :=
  match i with
  | .lbz rt ra d => Sys2Proof.Machine.execLbz rt ra d s
  | .lbzu rt ra d => Sys2Proof.Machine.execLbzu rt ra d s
  | .lbzux rt ra rb nr => Sys2Proof.Machine.execLbzux rt ra rb nr s
  | .lbzx rt ra rb nr => Sys2Proof.Machine.execLbzx rt ra rb nr s
  | .lha rt ra d => Sys2Proof.Machine.execLha rt ra d s
  | .lhau rt ra d => Sys2Proof.Machine.execLhau rt ra d s
  | .lhaux rt ra rb nr => Sys2Proof.Machine.execLhaux rt ra rb nr s
  | .lhax rt ra rb nr => Sys2Proof.Machine.execLhax rt ra rb nr s
  | .lhz rt ra d => Sys2Proof.Machine.execLhz rt ra d s
  | .lhzu rt ra d => Sys2Proof.Machine.execLhzu rt ra d s
  | .lhzux rt ra rb nr => Sys2Proof.Machine.execLhzux rt ra rb nr s
  | .lhzx rt ra rb nr => Sys2Proof.Machine.execLhzx rt ra rb nr s
  | .lwz rt ra d => Sys2Proof.Machine.execLwz rt ra d s
  | .lwzu rt ra d => Sys2Proof.Machine.execLwzu rt ra d s
  | .lwzux rt ra rb nr => Sys2Proof.Machine.execLwzux rt ra rb nr s
  | .lwzx rt ra rb nr => Sys2Proof.Machine.execLwzx rt ra rb nr s
  | .stb rs ra d => Sys2Proof.Machine.execStb rs ra d s
  | .stbu rs ra d => Sys2Proof.Machine.execStbu rs ra d s
  | .stbux rs ra rb nr => Sys2Proof.Machine.execStbux rs ra rb nr s
  | .stbx rs ra rb nr => Sys2Proof.Machine.execStbx rs ra rb nr s
  | .sth rs ra d => Sys2Proof.Machine.execSth rs ra d s
  | .sthu rs ra d => Sys2Proof.Machine.execSthu rs ra d s
  | .sthux rs ra rb nr => Sys2Proof.Machine.execSthux rs ra rb nr s
  | .sthx rs ra rb nr => Sys2Proof.Machine.execSthx rs ra rb nr s
  | .stw rs ra d => Sys2Proof.Machine.execStw rs ra d s
  | .stwu rs ra d => Sys2Proof.Machine.execStwu rs ra d s
  | .stwux rs ra rb nr => Sys2Proof.Machine.execStwux rs ra rb nr s
  | .stwx rs ra rb nr => Sys2Proof.Machine.execStwx rs ra rb nr s
  | .lhbrx rt ra rb nr => Sys2Proof.Machine.execLhbrx rt ra rb nr s
  | .lwbrx rt ra rb nr => Sys2Proof.Machine.execLwbrx rt ra rb nr s
  | .sthbrx rs ra rb nr => Sys2Proof.Machine.execSthbrx rs ra rb nr s
  | .stwbrx rs ra rb nr => Sys2Proof.Machine.execStwbrx rs ra rb nr s
  | .lmw rt ra d => Sys2Proof.Machine.execLmw rt ra d s
  | .stmw rs ra d => Sys2Proof.Machine.execStmw rs ra d s
  | .lswi rt ra nb nr => Sys2Proof.Machine.execLswi rt ra nb nr s
  | .lswx rt ra rb nr => Sys2Proof.Machine.execLswx rt ra rb nr s
  | .stswi rs ra nb nr => Sys2Proof.Machine.execStswi rs ra nb nr s
  | .stswx rs ra rb nr => Sys2Proof.Machine.execStswx rs ra rb nr s
  | .lwarx rt ra rb nr => Sys2Proof.Machine.execLwarx rt ra rb nr s
  | .stwcx rs ra rb => Sys2Proof.Machine.execStwcx rs ra rb s
  | .add rt ra rb oe rc => Sys2Proof.Machine.execAdd rt ra rb oe rc s
  | .addc rt ra rb oe rc => Sys2Proof.Machine.execAddc rt ra rb oe rc s
  | .adde rt ra rb oe rc => Sys2Proof.Machine.execAdde rt ra rb oe rc s
  | .addi rt ra im => Sys2Proof.Machine.execAddi rt ra im s
  | .addic rt ra im => Sys2Proof.Machine.execAddic rt ra im s
  | .addicRc rt ra im => Sys2Proof.Machine.execAddicRc rt ra im s
  | .addis rt ra im => Sys2Proof.Machine.execAddis rt ra im s
  | .addme rt ra oe rc => Sys2Proof.Machine.execAddme rt ra oe rc s
  | .addze rt ra oe rc => Sys2Proof.Machine.execAddze rt ra oe rc s
  | .divw rt ra rb oe rc => Sys2Proof.Machine.execDivw rt ra rb oe rc s
  | .divwu rt ra rb oe rc => Sys2Proof.Machine.execDivwu rt ra rb oe rc s
  | .mulhw rt ra rb rc => Sys2Proof.Machine.execMulhw rt ra rb rc s
  | .mulhwu rt ra rb rc => Sys2Proof.Machine.execMulhwu rt ra rb rc s
  | .mulli rt ra im => Sys2Proof.Machine.execMulli rt ra im s
  | .mullw rt ra rb oe rc => Sys2Proof.Machine.execMullw rt ra rb oe rc s
  | .neg rt ra oe rc => Sys2Proof.Machine.execNeg rt ra oe rc s
  | .subf rt ra rb oe rc => Sys2Proof.Machine.execSubf rt ra rb oe rc s
  | .subfc rt ra rb oe rc => Sys2Proof.Machine.execSubfc rt ra rb oe rc s
  | .subfe rt ra rb oe rc => Sys2Proof.Machine.execSubfe rt ra rb oe rc s
  | .subfic rt ra im => Sys2Proof.Machine.execSubfic rt ra im s
  | .subfme rt ra oe rc => Sys2Proof.Machine.execSubfme rt ra oe rc s
  | .subfze rt ra oe rc => Sys2Proof.Machine.execSubfze rt ra oe rc s
  | .macchw rt ra rb oe rc => Sys2Proof.Machine.execMacchw rt ra rb oe rc s
  | .macchws rt ra rb oe rc => Sys2Proof.Machine.execMacchws rt ra rb oe rc s
  | .macchwsu rt ra rb oe rc => Sys2Proof.Machine.execMacchwsu rt ra rb oe rc s
  | .macchwu rt ra rb oe rc => Sys2Proof.Machine.execMacchwu rt ra rb oe rc s
  | .machhw rt ra rb oe rc => Sys2Proof.Machine.execMachhw rt ra rb oe rc s
  | .machhws rt ra rb oe rc => Sys2Proof.Machine.execMachhws rt ra rb oe rc s
  | .machhwsu rt ra rb oe rc => Sys2Proof.Machine.execMachhwsu rt ra rb oe rc s
  | .machhwu rt ra rb oe rc => Sys2Proof.Machine.execMachhwu rt ra rb oe rc s
  | .maclhw rt ra rb oe rc => Sys2Proof.Machine.execMaclhw rt ra rb oe rc s
  | .maclhws rt ra rb oe rc => Sys2Proof.Machine.execMaclhws rt ra rb oe rc s
  | .maclhwsu rt ra rb oe rc => Sys2Proof.Machine.execMaclhwsu rt ra rb oe rc s
  | .maclhwu rt ra rb oe rc => Sys2Proof.Machine.execMaclhwu rt ra rb oe rc s
  | .nmacchw rt ra rb oe rc => Sys2Proof.Machine.execNmacchw rt ra rb oe rc s
  | .nmacchws rt ra rb oe rc => Sys2Proof.Machine.execNmacchws rt ra rb oe rc s
  | .nmachhw rt ra rb oe rc => Sys2Proof.Machine.execNmachhw rt ra rb oe rc s
  | .nmachhws rt ra rb oe rc => Sys2Proof.Machine.execNmachhws rt ra rb oe rc s
  | .nmaclhw rt ra rb oe rc => Sys2Proof.Machine.execNmaclhw rt ra rb oe rc s
  | .nmaclhws rt ra rb oe rc => Sys2Proof.Machine.execNmaclhws rt ra rb oe rc s
  | .mulchw rt ra rb rc => Sys2Proof.Machine.execMulchw rt ra rb rc s
  | .mulchwu rt ra rb rc => Sys2Proof.Machine.execMulchwu rt ra rb rc s
  | .mulhhw rt ra rb rc => Sys2Proof.Machine.execMulhhw rt ra rb rc s
  | .mulhhwu rt ra rb rc => Sys2Proof.Machine.execMulhhwu rt ra rb rc s
  | .mullhw rt ra rb rc => Sys2Proof.Machine.execMullhw rt ra rb rc s
  | .mullhwu rt ra rb rc => Sys2Proof.Machine.execMullhwu rt ra rb rc s
  | .and rs ra rb rc => Sys2Proof.Machine.execAnd rs ra rb rc s
  | .andc rs ra rb rc => Sys2Proof.Machine.execAndc rs ra rb rc s
  | .andi rs ra im => Sys2Proof.Machine.execAndi rs ra im s
  | .andis rs ra im => Sys2Proof.Machine.execAndis rs ra im s
  | .cntlzw rs ra rc => Sys2Proof.Machine.execCntlzw rs ra rc s
  | .eqv rs ra rb rc => Sys2Proof.Machine.execEqv rs ra rb rc s
  | .extsb rs ra rc => Sys2Proof.Machine.execExtsb rs ra rc s
  | .extsh rs ra rc => Sys2Proof.Machine.execExtsh rs ra rc s
  | .nand rs ra rb rc => Sys2Proof.Machine.execNand rs ra rb rc s
  | .nor rs ra rb rc => Sys2Proof.Machine.execNor rs ra rb rc s
  | .or rs ra rb rc => Sys2Proof.Machine.execOr rs ra rb rc s
  | .orc rs ra rb rc => Sys2Proof.Machine.execOrc rs ra rb rc s
  | .ori rs ra im => Sys2Proof.Machine.execOri rs ra im s
  | .oris rs ra im => Sys2Proof.Machine.execOris rs ra im s
  | .xor rs ra rb rc => Sys2Proof.Machine.execXor rs ra rb rc s
  | .xori rs ra im => Sys2Proof.Machine.execXori rs ra im s
  | .xoris rs ra im => Sys2Proof.Machine.execXoris rs ra im s
  | .cmp bf ra rb nr => Sys2Proof.Machine.execCmp bf ra rb nr s
  | .cmpi bf ra im => Sys2Proof.Machine.execCmpi bf ra im s
  | .cmpl bf ra rb nr => Sys2Proof.Machine.execCmpl bf ra rb nr s
  | .cmpli bf ra im => Sys2Proof.Machine.execCmpli bf ra im s
  | .b li aa lk => Sys2Proof.Machine.execB li aa lk s
  | .bc bo bi bd aa lk => Sys2Proof.Machine.execBc bo bi bd aa lk s
  | .bcctr bo bi lk => Sys2Proof.Machine.execBcctr bo bi lk s
  | .bclr bo bi lk => Sys2Proof.Machine.execBclr bo bi lk s
  | .crand bt ba bb nr => Sys2Proof.Machine.execCrand bt ba bb nr s
  | .crandc bt ba bb nr => Sys2Proof.Machine.execCrandc bt ba bb nr s
  | .creqv bt ba bb nr => Sys2Proof.Machine.execCreqv bt ba bb nr s
  | .crnand bt ba bb nr => Sys2Proof.Machine.execCrnand bt ba bb nr s
  | .crnor bt ba bb nr => Sys2Proof.Machine.execCrnor bt ba bb nr s
  | .cror bt ba bb nr => Sys2Proof.Machine.execCror bt ba bb nr s
  | .crorc bt ba bb nr => Sys2Proof.Machine.execCrorc bt ba bb nr s
  | .crxor bt ba bb nr => Sys2Proof.Machine.execCrxor bt ba bb nr s
  | .mcrf bf bfa nr => Sys2Proof.Machine.execMcrf bf bfa nr s
  | .rlwimi rs ra sh mb me rc => Sys2Proof.Machine.execRlwimi rs ra sh mb me rc s
  | .rlwinm rs ra sh mb me rc => Sys2Proof.Machine.execRlwinm rs ra sh mb me rc s
  | .rlwnm rs ra rb mb me rc => Sys2Proof.Machine.execRlwnm rs ra rb mb me rc s
  | .slw rs ra rb rc => Sys2Proof.Machine.execSlw rs ra rb rc s
  | .sraw rs ra rb rc => Sys2Proof.Machine.execSraw rs ra rb rc s
  | .srawi rs ra sh rc => Sys2Proof.Machine.execSrawi rs ra sh rc s
  | .srw rs ra rb rc => Sys2Proof.Machine.execSrw rs ra rb rc s
  | .dcba ra rb nr => Sys2Proof.Machine.execDcba ra rb nr s
  | .dcbf ra rb nr => Sys2Proof.Machine.execDcbf ra rb nr s
  | .dcbi ra rb nr => Sys2Proof.Machine.execDcbi ra rb nr s
  | .dcbst ra rb nr => Sys2Proof.Machine.execDcbst ra rb nr s
  | .dcbt ra rb nr => Sys2Proof.Machine.execDcbt ra rb nr s
  | .dcbtst ra rb nr => Sys2Proof.Machine.execDcbtst ra rb nr s
  | .dcbz ra rb nr => Sys2Proof.Machine.execDcbz ra rb nr s
  | .dccci ra rb nr => Sys2Proof.Machine.execDccci ra rb nr s
  | .dcread rt ra rb nr => Sys2Proof.Machine.execDcread rt ra rb nr s
  | .icbi ra rb nr => Sys2Proof.Machine.execIcbi ra rb nr s
  | .icbt ra rb nr => Sys2Proof.Machine.execIcbt ra rb nr s
  | .iccci ra rb nr => Sys2Proof.Machine.execIccci ra rb nr s
  | .icread ra rb nr => Sys2Proof.Machine.execIcread ra rb nr s
  | .mfmsr rt nr => Sys2Proof.Machine.execMfmsr rt nr s
  | .mtmsr rs nr => Sys2Proof.Machine.execMtmsr rs nr s
  | .rfci nr => Sys2Proof.Machine.execRfci nr s
  | .rfi nr => Sys2Proof.Machine.execRfi nr s
  | .wrtee rs nr => Sys2Proof.Machine.execWrtee rs nr s
  | .wrteei e nr => Sys2Proof.Machine.execWrteei e nr s
  | .tlbia nr => Sys2Proof.Machine.execTlbia nr s
  | .tlbre rt ra ws nr => Sys2Proof.Machine.execTlbre rt ra ws nr s
  | .tlbsync nr => Sys2Proof.Machine.execTlbsync nr s
  | .tlbsx rt ra rb rc => Sys2Proof.Machine.execTlbsx rt ra rb rc s
  | .tlbwe rs ra ws nr => Sys2Proof.Machine.execTlbwe rs ra ws nr s
  | .eieio nr => Sys2Proof.Machine.execEieio nr s
  | .isync nr => Sys2Proof.Machine.execIsync nr s
  | .mcrxr bf nr => Sys2Proof.Machine.execMcrxr bf nr s
  | .mfcr rt nr => Sys2Proof.Machine.execMfcr rt nr s
  | .mfdcr rt dcrn nr => Sys2Proof.Machine.execMfdcr rt dcrn nr s
  | .mtcrf rs fxm nr => Sys2Proof.Machine.execMtcrf rs fxm nr s
  | .mtdcr rs dcrn nr => Sys2Proof.Machine.execMtdcr rs dcrn nr s
  | .sync nr => Sys2Proof.Machine.execSync nr s
  | .mfspr rt sprn nr => Sys2Proof.Machine.execMfspr rt sprn nr s
  | .mftb rt tbrn nr => Sys2Proof.Machine.execMftb rt tbrn nr s
  | .mtspr rs sprn nr => Sys2Proof.Machine.execMtspr rs sprn nr s
  | .sc => Sys2Proof.Machine.execSc s
  | .tw tcond ra rb nr => Sys2Proof.Machine.execTw tcond ra rb nr s
  | .twi tcond ra im => Sys2Proof.Machine.execTwi tcond ra im s

end Sys2Proof.Machine
end

