-- ==== Sys2Proof/Decode.lean ====
section
/-! DEFINITION. The decoder, total on any bytes, and after it the encoder, both from the encoding tables of
30_encoding.md (R200 to R211) and spec/opcode_table.json. -/
namespace Sys2Proof

/-! ## Fields of an instruction word (R203; bit 0 is the most significant bit, R10) -/

/-- OPCD, bits 0:5. -/
def opcd (w : Word) : BitVec 6 := w.extractLsb' 26 6
/-- Bits 6:10 (RT, RS, BO, BT, TO). -/
def f06 (w : Word) : BitVec 5 := w.extractLsb' 21 5
/-- Bits 11:15 (RA, BI, BA). -/
def f11 (w : Word) : BitVec 5 := w.extractLsb' 16 5
/-- Bits 16:20 (RB, BB, SH, NB, WS). -/
def f16 (w : Word) : BitVec 5 := w.extractLsb' 11 5
/-- Bits 21:25 (MB). -/
def f21 (w : Word) : BitVec 5 := w.extractLsb' 6 5
/-- Bits 26:30 (ME). -/
def f26 (w : Word) : BitVec 5 := w.extractLsb' 1 5
/-- Bits 21:30 (XO of the X, XL and XFX forms, R201). -/
def xo10 (w : Word) : BitVec 10 := w.extractLsb' 1 10
/-- Bits 22:30 (XO of the XO form, R201). -/
def xo9 (w : Word) : BitVec 9 := w.extractLsb' 1 9
/-- Bits 16:31 (D, IM). -/
def imm (w : Word) : BitVec 16 := w.extractLsb' 0 16
/-- Bits 6:29 (LI). -/
def liField (w : Word) : BitVec 24 := w.extractLsb' 2 24
/-- Bits 16:29 (BD). -/
def bdField (w : Word) : BitVec 14 := w.extractLsb' 2 14
/-- Bits 6:8 (BF). -/
def bfField (w : Word) : BitVec 3 := w.extractLsb' 23 3
/-- Bits 11:13 (BFA). -/
def bfaField (w : Word) : BitVec 3 := w.extractLsb' 18 3
/-- Bits 12:19 (FXM). -/
def fxmField (w : Word) : BitVec 8 := w.extractLsb' 12 8
/-- Bit 16 (E of wrteei). -/
def bit16 (w : Word) : Bool := w.getLsbD 15
/-- Bit 21 (OE). -/
def bit21 (w : Word) : Bool := w.getLsbD 10
/-- Bit 30 (AA). -/
def bit30 (w : Word) : Bool := w.getLsbD 1
/-- Bit 31 (Rc, LK, or the reserved bit of R246 (b)). -/
def bit31 (w : Word) : Bool := w.getLsbD 0
/-- The number in SPRF, DCRF or TBRF: bits 16:20 are its high-order half and bits 11:15 its low-order half
(49_processor_management.md R570). -/
def swapped (w : Word) : BitVec 10 := f16 w ++ f11 w

/-! ## The opcode tables (R210, R211): number and what to build from the word -/

/-- The instructions a primary opcode alone identifies (R211); sc also needs bit 30 and is not here. Part 1. -/
def primaryTableA : List (Nat × (Word → Instr)) :=
  [(3, fun w => .twi (f06 w) (f11 w) (imm w)),
   (7, fun w => .mulli (f06 w) (f11 w) (imm w)),
   (8, fun w => .subfic (f06 w) (f11 w) (imm w)),
   (10, fun w => .cmpli (bfField w) (f11 w) (imm w)),
   (11, fun w => .cmpi (bfField w) (f11 w) (imm w)),
   (12, fun w => .addic (f06 w) (f11 w) (imm w)),
   (13, fun w => .addicRc (f06 w) (f11 w) (imm w)),
   (14, fun w => .addi (f06 w) (f11 w) (imm w)),
   (15, fun w => .addis (f06 w) (f11 w) (imm w)),
   (16, fun w => .bc (f06 w) (f11 w) (bdField w) (bit30 w) (bit31 w)),
   (18, fun w => .b (liField w) (bit30 w) (bit31 w)),
   (20, fun w => .rlwimi (f06 w) (f11 w) (f16 w) (f21 w) (f26 w) (bit31 w)),
   (21, fun w => .rlwinm (f06 w) (f11 w) (f16 w) (f21 w) (f26 w) (bit31 w)),
   (23, fun w => .rlwnm (f06 w) (f11 w) (f16 w) (f21 w) (f26 w) (bit31 w)),
   (24, fun w => .ori (f06 w) (f11 w) (imm w)),
   (25, fun w => .oris (f06 w) (f11 w) (imm w)),
   (26, fun w => .xori (f06 w) (f11 w) (imm w)),
   (27, fun w => .xoris (f06 w) (f11 w) (imm w)),
   (28, fun w => .andi (f06 w) (f11 w) (imm w)),
   (29, fun w => .andis (f06 w) (f11 w) (imm w)),
   (32, fun w => .lwz (f06 w) (f11 w) (imm w)),
   (33, fun w => .lwzu (f06 w) (f11 w) (imm w)),
   (34, fun w => .lbz (f06 w) (f11 w) (imm w)),
   (35, fun w => .lbzu (f06 w) (f11 w) (imm w)),
   (36, fun w => .stw (f06 w) (f11 w) (imm w)),
   (37, fun w => .stwu (f06 w) (f11 w) (imm w)),
   (38, fun w => .stb (f06 w) (f11 w) (imm w)),
   (39, fun w => .stbu (f06 w) (f11 w) (imm w)),
   (40, fun w => .lhz (f06 w) (f11 w) (imm w)),
   (41, fun w => .lhzu (f06 w) (f11 w) (imm w))]

/-- The instructions a primary opcode alone identifies (R211); sc also needs bit 30 and is not here. Part 2. -/
def primaryTableB : List (Nat × (Word → Instr)) :=
  [(42, fun w => .lha (f06 w) (f11 w) (imm w)),
   (43, fun w => .lhau (f06 w) (f11 w) (imm w)),
   (44, fun w => .sth (f06 w) (f11 w) (imm w)),
   (45, fun w => .sthu (f06 w) (f11 w) (imm w)),
   (46, fun w => .lmw (f06 w) (f11 w) (imm w)),
   (47, fun w => .stmw (f06 w) (f11 w) (imm w))]

/-- The instructions a primary opcode alone identifies (R211); sc also needs bit 30 and is not here. -/
def primaryTable : List (Nat × (Word → Instr)) := primaryTableA ++ primaryTableB

/-- OPCD 4, X form: the 10-bit extended opcodes of the halfword multiplies. -/
def group4X : List (Nat × (Word → Instr)) :=
  [(8, fun w => .mulhhwu (f06 w) (f11 w) (f16 w) (bit31 w)),
   (40, fun w => .mulhhw (f06 w) (f11 w) (f16 w) (bit31 w)),
   (136, fun w => .mulchwu (f06 w) (f11 w) (f16 w) (bit31 w)),
   (168, fun w => .mulchw (f06 w) (f11 w) (f16 w) (bit31 w)),
   (392, fun w => .mullhwu (f06 w) (f11 w) (f16 w) (bit31 w)),
   (424, fun w => .mullhw (f06 w) (f11 w) (f16 w) (bit31 w))]

/-- OPCD 4, XO form: the 9-bit extended opcodes of the multiply-accumulate instructions. -/
def group4XO : List (Nat × (Word → Instr)) :=
  [(12, fun w => .machhwu (f06 w) (f11 w) (f16 w) (bit21 w) (bit31 w)),
   (44, fun w => .machhw (f06 w) (f11 w) (f16 w) (bit21 w) (bit31 w)),
   (46, fun w => .nmachhw (f06 w) (f11 w) (f16 w) (bit21 w) (bit31 w)),
   (76, fun w => .machhwsu (f06 w) (f11 w) (f16 w) (bit21 w) (bit31 w)),
   (108, fun w => .machhws (f06 w) (f11 w) (f16 w) (bit21 w) (bit31 w)),
   (110, fun w => .nmachhws (f06 w) (f11 w) (f16 w) (bit21 w) (bit31 w)),
   (140, fun w => .macchwu (f06 w) (f11 w) (f16 w) (bit21 w) (bit31 w)),
   (172, fun w => .macchw (f06 w) (f11 w) (f16 w) (bit21 w) (bit31 w)),
   (174, fun w => .nmacchw (f06 w) (f11 w) (f16 w) (bit21 w) (bit31 w)),
   (204, fun w => .macchwsu (f06 w) (f11 w) (f16 w) (bit21 w) (bit31 w)),
   (236, fun w => .macchws (f06 w) (f11 w) (f16 w) (bit21 w) (bit31 w)),
   (238, fun w => .nmacchws (f06 w) (f11 w) (f16 w) (bit21 w) (bit31 w)),
   (396, fun w => .maclhwu (f06 w) (f11 w) (f16 w) (bit21 w) (bit31 w)),
   (428, fun w => .maclhw (f06 w) (f11 w) (f16 w) (bit21 w) (bit31 w)),
   (430, fun w => .nmaclhw (f06 w) (f11 w) (f16 w) (bit21 w) (bit31 w)),
   (460, fun w => .maclhwsu (f06 w) (f11 w) (f16 w) (bit21 w) (bit31 w)),
   (492, fun w => .maclhws (f06 w) (f11 w) (f16 w) (bit21 w) (bit31 w)),
   (494, fun w => .nmaclhws (f06 w) (f11 w) (f16 w) (bit21 w) (bit31 w))]

/-- OPCD 19, XL form: 10-bit extended opcodes. -/
def group19 : List (Nat × (Word → Instr)) :=
  [(0, fun w => .mcrf (bfField w) (bfaField w) (bit31 w)),
   (16, fun w => .bclr (f06 w) (f11 w) (bit31 w)),
   (33, fun w => .crnor (f06 w) (f11 w) (f16 w) (bit31 w)),
   (50, fun w => .rfi (bit31 w)),
   (51, fun w => .rfci (bit31 w)),
   (129, fun w => .crandc (f06 w) (f11 w) (f16 w) (bit31 w)),
   (150, fun w => .isync (bit31 w)),
   (193, fun w => .crxor (f06 w) (f11 w) (f16 w) (bit31 w)),
   (225, fun w => .crnand (f06 w) (f11 w) (f16 w) (bit31 w)),
   (257, fun w => .crand (f06 w) (f11 w) (f16 w) (bit31 w)),
   (289, fun w => .creqv (f06 w) (f11 w) (f16 w) (bit31 w)),
   (417, fun w => .crorc (f06 w) (f11 w) (f16 w) (bit31 w)),
   (449, fun w => .cror (f06 w) (f11 w) (f16 w) (bit31 w)),
   (528, fun w => .bcctr (f06 w) (f11 w) (bit31 w))]

/-- OPCD 31, X and XFX forms: 10-bit extended opcodes; stwcx. also needs bit 31 and is not here. Part 1. -/
def group31XA : List (Nat × (Word → Instr)) :=
  [(0, fun w => .cmp (bfField w) (f11 w) (f16 w) (bit31 w)),
   (4, fun w => .tw (f06 w) (f11 w) (f16 w) (bit31 w)),
   (19, fun w => .mfcr (f06 w) (bit31 w)),
   (20, fun w => .lwarx (f06 w) (f11 w) (f16 w) (bit31 w)),
   (23, fun w => .lwzx (f06 w) (f11 w) (f16 w) (bit31 w)),
   (24, fun w => .slw (f06 w) (f11 w) (f16 w) (bit31 w)),
   (26, fun w => .cntlzw (f06 w) (f11 w) (bit31 w)),
   (28, fun w => .and (f06 w) (f11 w) (f16 w) (bit31 w)),
   (32, fun w => .cmpl (bfField w) (f11 w) (f16 w) (bit31 w)),
   (54, fun w => .dcbst (f11 w) (f16 w) (bit31 w)),
   (55, fun w => .lwzux (f06 w) (f11 w) (f16 w) (bit31 w)),
   (60, fun w => .andc (f06 w) (f11 w) (f16 w) (bit31 w)),
   (83, fun w => .mfmsr (f06 w) (bit31 w)),
   (86, fun w => .dcbf (f11 w) (f16 w) (bit31 w)),
   (87, fun w => .lbzx (f06 w) (f11 w) (f16 w) (bit31 w)),
   (119, fun w => .lbzux (f06 w) (f11 w) (f16 w) (bit31 w)),
   (124, fun w => .nor (f06 w) (f11 w) (f16 w) (bit31 w)),
   (131, fun w => .wrtee (f06 w) (bit31 w)),
   (144, fun w => .mtcrf (f06 w) (fxmField w) (bit31 w)),
   (146, fun w => .mtmsr (f06 w) (bit31 w)),
   (151, fun w => .stwx (f06 w) (f11 w) (f16 w) (bit31 w)),
   (163, fun w => .wrteei (bit16 w) (bit31 w)),
   (183, fun w => .stwux (f06 w) (f11 w) (f16 w) (bit31 w)),
   (215, fun w => .stbx (f06 w) (f11 w) (f16 w) (bit31 w)),
   (246, fun w => .dcbtst (f11 w) (f16 w) (bit31 w)),
   (247, fun w => .stbux (f06 w) (f11 w) (f16 w) (bit31 w)),
   (262, fun w => .icbt (f11 w) (f16 w) (bit31 w)),
   (278, fun w => .dcbt (f11 w) (f16 w) (bit31 w)),
   (279, fun w => .lhzx (f06 w) (f11 w) (f16 w) (bit31 w)),
   (284, fun w => .eqv (f06 w) (f11 w) (f16 w) (bit31 w))]

/-- OPCD 31, X and XFX forms: 10-bit extended opcodes; stwcx. also needs bit 31 and is not here. Part 2. -/
def group31XB : List (Nat × (Word → Instr)) :=
  [(311, fun w => .lhzux (f06 w) (f11 w) (f16 w) (bit31 w)),
   (316, fun w => .xor (f06 w) (f11 w) (f16 w) (bit31 w)),
   (323, fun w => .mfdcr (f06 w) (swapped w) (bit31 w)),
   (339, fun w => .mfspr (f06 w) (swapped w) (bit31 w)),
   (343, fun w => .lhax (f06 w) (f11 w) (f16 w) (bit31 w)),
   (370, fun w => .tlbia (bit31 w)),
   (371, fun w => .mftb (f06 w) (swapped w) (bit31 w)),
   (375, fun w => .lhaux (f06 w) (f11 w) (f16 w) (bit31 w)),
   (407, fun w => .sthx (f06 w) (f11 w) (f16 w) (bit31 w)),
   (412, fun w => .orc (f06 w) (f11 w) (f16 w) (bit31 w)),
   (439, fun w => .sthux (f06 w) (f11 w) (f16 w) (bit31 w)),
   (444, fun w => .or (f06 w) (f11 w) (f16 w) (bit31 w)),
   (451, fun w => .mtdcr (f06 w) (swapped w) (bit31 w)),
   (454, fun w => .dccci (f11 w) (f16 w) (bit31 w)),
   (467, fun w => .mtspr (f06 w) (swapped w) (bit31 w)),
   (470, fun w => .dcbi (f11 w) (f16 w) (bit31 w)),
   (476, fun w => .nand (f06 w) (f11 w) (f16 w) (bit31 w)),
   (486, fun w => .dcread (f06 w) (f11 w) (f16 w) (bit31 w)),
   (512, fun w => .mcrxr (bfField w) (bit31 w)),
   (533, fun w => .lswx (f06 w) (f11 w) (f16 w) (bit31 w)),
   (534, fun w => .lwbrx (f06 w) (f11 w) (f16 w) (bit31 w)),
   (536, fun w => .srw (f06 w) (f11 w) (f16 w) (bit31 w)),
   (566, fun w => .tlbsync (bit31 w)),
   (597, fun w => .lswi (f06 w) (f11 w) (f16 w) (bit31 w)),
   (598, fun w => .sync (bit31 w)),
   (661, fun w => .stswx (f06 w) (f11 w) (f16 w) (bit31 w)),
   (662, fun w => .stwbrx (f06 w) (f11 w) (f16 w) (bit31 w)),
   (725, fun w => .stswi (f06 w) (f11 w) (f16 w) (bit31 w)),
   (758, fun w => .dcba (f11 w) (f16 w) (bit31 w)),
   (790, fun w => .lhbrx (f06 w) (f11 w) (f16 w) (bit31 w))]

/-- OPCD 31, X and XFX forms: 10-bit extended opcodes; stwcx. also needs bit 31 and is not here. Part 3. -/
def group31XC : List (Nat × (Word → Instr)) :=
  [(792, fun w => .sraw (f06 w) (f11 w) (f16 w) (bit31 w)),
   (824, fun w => .srawi (f06 w) (f11 w) (f16 w) (bit31 w)),
   (854, fun w => .eieio (bit31 w)),
   (914, fun w => .tlbsx (f06 w) (f11 w) (f16 w) (bit31 w)),
   (918, fun w => .sthbrx (f06 w) (f11 w) (f16 w) (bit31 w)),
   (922, fun w => .extsh (f06 w) (f11 w) (bit31 w)),
   (946, fun w => .tlbre (f06 w) (f11 w) (f16 w) (bit31 w)),
   (954, fun w => .extsb (f06 w) (f11 w) (bit31 w)),
   (966, fun w => .iccci (f11 w) (f16 w) (bit31 w)),
   (978, fun w => .tlbwe (f06 w) (f11 w) (f16 w) (bit31 w)),
   (982, fun w => .icbi (f11 w) (f16 w) (bit31 w)),
   (998, fun w => .icread (f11 w) (f16 w) (bit31 w)),
   (1014, fun w => .dcbz (f11 w) (f16 w) (bit31 w))]

/-- OPCD 31, X and XFX forms: 10-bit extended opcodes; stwcx. also needs bit 31 and is not here. -/
def group31X : List (Nat × (Word → Instr)) := group31XA ++ group31XB ++ group31XC

/-- OPCD 31, XO form: 9-bit extended opcodes (bit 21 is OE, or reserved in mulhw and mulhwu). -/
def group31XO : List (Nat × (Word → Instr)) :=
  [(8, fun w => .subfc (f06 w) (f11 w) (f16 w) (bit21 w) (bit31 w)),
   (10, fun w => .addc (f06 w) (f11 w) (f16 w) (bit21 w) (bit31 w)),
   (11, fun w => .mulhwu (f06 w) (f11 w) (f16 w) (bit31 w)),
   (40, fun w => .subf (f06 w) (f11 w) (f16 w) (bit21 w) (bit31 w)),
   (75, fun w => .mulhw (f06 w) (f11 w) (f16 w) (bit31 w)),
   (104, fun w => .neg (f06 w) (f11 w) (bit21 w) (bit31 w)),
   (136, fun w => .subfe (f06 w) (f11 w) (f16 w) (bit21 w) (bit31 w)),
   (138, fun w => .adde (f06 w) (f11 w) (f16 w) (bit21 w) (bit31 w)),
   (200, fun w => .subfze (f06 w) (f11 w) (bit21 w) (bit31 w)),
   (202, fun w => .addze (f06 w) (f11 w) (bit21 w) (bit31 w)),
   (232, fun w => .subfme (f06 w) (f11 w) (bit21 w) (bit31 w)),
   (234, fun w => .addme (f06 w) (f11 w) (bit21 w) (bit31 w)),
   (235, fun w => .mullw (f06 w) (f11 w) (f16 w) (bit21 w) (bit31 w)),
   (266, fun w => .add (f06 w) (f11 w) (f16 w) (bit21 w) (bit31 w)),
   (459, fun w => .divwu (f06 w) (f11 w) (f16 w) (bit21 w) (bit31 w)),
   (491, fun w => .divw (f06 w) (f11 w) (f16 w) (bit21 w) (bit31 w))]

/-! ## Decoding -/

/-- Why bytes are no PowerPC 405 instruction. What the machine does with each is in `Machine/Step.lean`. -/
inductive DecodeError where
  /-- Fewer than four bytes: there is no shorter instruction (R200). -/
  | truncated
  /-- A primary opcode with no instruction (R211, R245). -/
  | illegalPrimary (opcd : Nat)
  /-- A primary opcode and extended opcode that name no instruction (R245); in OPCD 17, bit 30 is 0. -/
  | illegalExtended (opcd xo : Nat)
  /-- An encoding of an attached floating-point unit's load, store or arithmetic (R245, 60_exceptions.md R641). -/
  | floatingPoint (opcd xo : Nat)
  /-- An OPCD 4 encoding that is no core instruction: an attached auxiliary processor's (R245, 60_exceptions.md R642). -/
  | auxiliary (xo : Nat)
deriving DecidableEq, Repr

/-- The first table row with this number. -/
def findRow (k : Nat) : List (Nat × (Word → Instr)) → Option (Word → Instr)
  | [] => none
  | (n, f) :: rest => if n = k then some f else findRow k rest

/-- OPCD 31 extended opcodes of the PowerPC floating-point indexed loads and stores: lfsx, lfsux, lfdx, lfdux, stfsx,
stfsux, stfdx, stfdux, stfiwx (R245 names them; the numbers are PRESUMED from the PowerPC Architecture, log entry 8). -/
def floatingIndexed : List Nat := [535, 567, 599, 631, 663, 695, 727, 759, 983]

/-- Primary opcodes of the floating-point loads, stores and arithmetic (R211, R245). -/
def floatingPrimary : List Nat := [48, 49, 50, 51, 52, 53, 54, 55, 59, 63]

/-- OPCD 31 (X, XFX and XO forms, stwcx.). -/
def decode31 (w : Word) : Except DecodeError Instr :=
  match findRow (xo10 w).toNat group31X with
  | some f => .ok (f w)
  | none =>
    match findRow (xo9 w).toNat group31XO with
    | some f => .ok (f w)
    | none =>
      if (xo10 w).toNat = 150 ∧ bit31 w = true then .ok (.stwcx (f06 w) (f11 w) (f16 w))
      else if (xo10 w).toNat ∈ floatingIndexed then .error (.floatingPoint 31 (xo10 w).toNat)
      else .error (.illegalExtended 31 (xo10 w).toNat)

/-- OPCD 4 (halfword multiplies and multiply-accumulate). -/
def decode4 (w : Word) : Except DecodeError Instr :=
  match findRow (xo10 w).toNat group4X with
  | some f => .ok (f w)
  | none =>
    match findRow (xo9 w).toNat group4XO with
    | some f => .ok (f w)
    | none => .error (.auxiliary (xo10 w).toNat)

/-- The instruction of a word: OPCD, then the extended opcode of its group (R201). -/
def decodeWord (w : Word) : Except DecodeError Instr :=
  match findRow (opcd w).toNat primaryTable with
  | some f => .ok (f w)
  | none =>
    if (opcd w).toNat = 4 then decode4 w
    else if (opcd w).toNat = 17 then
      if bit30 w then .ok .sc else .error (.illegalExtended 17 0)
    else if (opcd w).toNat = 19 then
      match findRow (xo10 w).toNat group19 with
      | some f => .ok (f w)
      | none => .error (.illegalExtended 19 (xo10 w).toNat)
    else if (opcd w).toNat = 31 then decode31 w
    else if (opcd w).toNat ∈ floatingPrimary then .error (.floatingPoint (opcd w).toNat (xo10 w).toNat)
    else .error (.illegalPrimary (opcd w).toNat)

/-- The word of four bytes in big-endian order (20_memory.md R126). -/
def wordOfBytes (b0 b1 b2 b3 : Byte) : Word := b0 ++ b1 ++ b2 ++ b3

/-- The four bytes of a word in big-endian order, lowest address first (20_memory.md R126). -/
def bytesOfWord (w : Word) : List Byte :=
  [w.extractLsb' 24 8, w.extractLsb' 16 8, w.extractLsb' 8 8, w.extractLsb' 0 8]

/-- Decode the bytes at the front of a big-endian instruction stream; the rest of the stream comes back with it. -/
def decode : List Byte → Except DecodeError (Instr × List Byte)
  | b0 :: b1 :: b2 :: b3 :: rest =>
    match decodeWord (wordOfBytes b0 b1 b2 b3) with
    | .ok i => .ok (i, rest)
    | .error e => .error e
  | _ => .error .truncated

/-- What the host asks: the instruction decoded from an opcode-table word. `nbits` of `w` count, the rest are 0. -/
def decodeTableWord (nbits w : Nat) : Option Instr :=
  match decode (bytesOfWord (BitVec.ofNat 32 (w % 2 ^ nbits))) with
  | .ok (i, _) => some i
  | .error _ => none

/-! ## Encoding (R202) -/

/-- D form: OPCD, two 5-bit fields, a 16-bit immediate. -/
def dForm (o : BitVec 6) (a b : BitVec 5) (i : BitVec 16) : Word := o ++ a ++ b ++ i
/-- X, XL and XFX forms: OPCD, three 5-bit fields, XO at bits 21:30, bit 31. -/
def xForm (o : BitVec 6) (a b c : BitVec 5) (xo : BitVec 10) (r : Bool) : Word := o ++ a ++ b ++ c ++ xo ++ BitVec.ofBool r
/-- XO form: as X with OE at bit 21 and XO at bits 22:30. -/
def xoForm (o : BitVec 6) (a b c : BitVec 5) (oe : Bool) (xo : BitVec 9) (r : Bool) : Word :=
  xForm o a b c (BitVec.ofBool oe ++ xo) r
/-- M form: as X with MB and ME at bits 21:25 and 26:30. -/
def mForm (o : BitVec 6) (a b c mb me : BitVec 5) (r : Bool) : Word := xForm o a b c (mb ++ me) r
/-- I form. -/
def iForm (o : BitVec 6) (li : BitVec 24) (aa lk : Bool) : Word := o ++ li ++ BitVec.ofBool aa ++ BitVec.ofBool lk
/-- B form. -/
def bForm (o : BitVec 6) (bo bi : BitVec 5) (bd : BitVec 14) (aa lk : Bool) : Word :=
  o ++ bo ++ bi ++ bd ++ BitVec.ofBool aa ++ BitVec.ofBool lk
/-- The low-order half of a register number, at bits 11:15 (49_processor_management.md R570). -/
def loHalf (n : BitVec 10) : BitVec 5 := n.extractLsb' 0 5
/-- The high-order half of a register number, at bits 16:20 (49_processor_management.md R570). -/
def hiHalf (n : BitVec 10) : BitVec 5 := n.extractLsb' 5 5

/-- The word of an instruction, with every reserved bit 0 but the bit 31 that `nr` holds. -/
def encodeWord : Instr → Word
  | .lbz rt ra d => dForm 34#6 rt ra d
  | .lbzu rt ra d => dForm 35#6 rt ra d
  | .lbzux rt ra rb nr => xForm 31#6 rt ra rb 119#10 nr
  | .lbzx rt ra rb nr => xForm 31#6 rt ra rb 87#10 nr
  | .lha rt ra d => dForm 42#6 rt ra d
  | .lhau rt ra d => dForm 43#6 rt ra d
  | .lhaux rt ra rb nr => xForm 31#6 rt ra rb 375#10 nr
  | .lhax rt ra rb nr => xForm 31#6 rt ra rb 343#10 nr
  | .lhz rt ra d => dForm 40#6 rt ra d
  | .lhzu rt ra d => dForm 41#6 rt ra d
  | .lhzux rt ra rb nr => xForm 31#6 rt ra rb 311#10 nr
  | .lhzx rt ra rb nr => xForm 31#6 rt ra rb 279#10 nr
  | .lwz rt ra d => dForm 32#6 rt ra d
  | .lwzu rt ra d => dForm 33#6 rt ra d
  | .lwzux rt ra rb nr => xForm 31#6 rt ra rb 55#10 nr
  | .lwzx rt ra rb nr => xForm 31#6 rt ra rb 23#10 nr
  | .stb rs ra d => dForm 38#6 rs ra d
  | .stbu rs ra d => dForm 39#6 rs ra d
  | .stbux rs ra rb nr => xForm 31#6 rs ra rb 247#10 nr
  | .stbx rs ra rb nr => xForm 31#6 rs ra rb 215#10 nr
  | .sth rs ra d => dForm 44#6 rs ra d
  | .sthu rs ra d => dForm 45#6 rs ra d
  | .sthux rs ra rb nr => xForm 31#6 rs ra rb 439#10 nr
  | .sthx rs ra rb nr => xForm 31#6 rs ra rb 407#10 nr
  | .stw rs ra d => dForm 36#6 rs ra d
  | .stwu rs ra d => dForm 37#6 rs ra d
  | .stwux rs ra rb nr => xForm 31#6 rs ra rb 183#10 nr
  | .stwx rs ra rb nr => xForm 31#6 rs ra rb 151#10 nr
  | .lhbrx rt ra rb nr => xForm 31#6 rt ra rb 790#10 nr
  | .lwbrx rt ra rb nr => xForm 31#6 rt ra rb 534#10 nr
  | .sthbrx rs ra rb nr => xForm 31#6 rs ra rb 918#10 nr
  | .stwbrx rs ra rb nr => xForm 31#6 rs ra rb 662#10 nr
  | .lmw rt ra d => dForm 46#6 rt ra d
  | .stmw rs ra d => dForm 47#6 rs ra d
  | .lswi rt ra nb nr => xForm 31#6 rt ra nb 597#10 nr
  | .lswx rt ra rb nr => xForm 31#6 rt ra rb 533#10 nr
  | .stswi rs ra nb nr => xForm 31#6 rs ra nb 725#10 nr
  | .stswx rs ra rb nr => xForm 31#6 rs ra rb 661#10 nr
  | .lwarx rt ra rb nr => xForm 31#6 rt ra rb 20#10 nr
  | .stwcx rs ra rb => xForm 31#6 rs ra rb 150#10 true
  | .add rt ra rb oe rc => xoForm 31#6 rt ra rb oe 266#9 rc
  | .addc rt ra rb oe rc => xoForm 31#6 rt ra rb oe 10#9 rc
  | .adde rt ra rb oe rc => xoForm 31#6 rt ra rb oe 138#9 rc
  | .addi rt ra im => dForm 14#6 rt ra im
  | .addic rt ra im => dForm 12#6 rt ra im
  | .addicRc rt ra im => dForm 13#6 rt ra im
  | .addis rt ra im => dForm 15#6 rt ra im
  | .addme rt ra oe rc => xoForm 31#6 rt ra 0#5 oe 234#9 rc
  | .addze rt ra oe rc => xoForm 31#6 rt ra 0#5 oe 202#9 rc
  | .divw rt ra rb oe rc => xoForm 31#6 rt ra rb oe 491#9 rc
  | .divwu rt ra rb oe rc => xoForm 31#6 rt ra rb oe 459#9 rc
  | .mulhw rt ra rb rc => xoForm 31#6 rt ra rb false 75#9 rc
  | .mulhwu rt ra rb rc => xoForm 31#6 rt ra rb false 11#9 rc
  | .mulli rt ra im => dForm 7#6 rt ra im
  | .mullw rt ra rb oe rc => xoForm 31#6 rt ra rb oe 235#9 rc
  | .neg rt ra oe rc => xoForm 31#6 rt ra 0#5 oe 104#9 rc
  | .subf rt ra rb oe rc => xoForm 31#6 rt ra rb oe 40#9 rc
  | .subfc rt ra rb oe rc => xoForm 31#6 rt ra rb oe 8#9 rc
  | .subfe rt ra rb oe rc => xoForm 31#6 rt ra rb oe 136#9 rc
  | .subfic rt ra im => dForm 8#6 rt ra im
  | .subfme rt ra oe rc => xoForm 31#6 rt ra 0#5 oe 232#9 rc
  | .subfze rt ra oe rc => xoForm 31#6 rt ra 0#5 oe 200#9 rc
  | .macchw rt ra rb oe rc => xoForm 4#6 rt ra rb oe 172#9 rc
  | .macchws rt ra rb oe rc => xoForm 4#6 rt ra rb oe 236#9 rc
  | .macchwsu rt ra rb oe rc => xoForm 4#6 rt ra rb oe 204#9 rc
  | .macchwu rt ra rb oe rc => xoForm 4#6 rt ra rb oe 140#9 rc
  | .machhw rt ra rb oe rc => xoForm 4#6 rt ra rb oe 44#9 rc
  | .machhws rt ra rb oe rc => xoForm 4#6 rt ra rb oe 108#9 rc
  | .machhwsu rt ra rb oe rc => xoForm 4#6 rt ra rb oe 76#9 rc
  | .machhwu rt ra rb oe rc => xoForm 4#6 rt ra rb oe 12#9 rc
  | .maclhw rt ra rb oe rc => xoForm 4#6 rt ra rb oe 428#9 rc
  | .maclhws rt ra rb oe rc => xoForm 4#6 rt ra rb oe 492#9 rc
  | .maclhwsu rt ra rb oe rc => xoForm 4#6 rt ra rb oe 460#9 rc
  | .maclhwu rt ra rb oe rc => xoForm 4#6 rt ra rb oe 396#9 rc
  | .nmacchw rt ra rb oe rc => xoForm 4#6 rt ra rb oe 174#9 rc
  | .nmacchws rt ra rb oe rc => xoForm 4#6 rt ra rb oe 238#9 rc
  | .nmachhw rt ra rb oe rc => xoForm 4#6 rt ra rb oe 46#9 rc
  | .nmachhws rt ra rb oe rc => xoForm 4#6 rt ra rb oe 110#9 rc
  | .nmaclhw rt ra rb oe rc => xoForm 4#6 rt ra rb oe 430#9 rc
  | .nmaclhws rt ra rb oe rc => xoForm 4#6 rt ra rb oe 494#9 rc
  | .mulchw rt ra rb rc => xForm 4#6 rt ra rb 168#10 rc
  | .mulchwu rt ra rb rc => xForm 4#6 rt ra rb 136#10 rc
  | .mulhhw rt ra rb rc => xForm 4#6 rt ra rb 40#10 rc
  | .mulhhwu rt ra rb rc => xForm 4#6 rt ra rb 8#10 rc
  | .mullhw rt ra rb rc => xForm 4#6 rt ra rb 424#10 rc
  | .mullhwu rt ra rb rc => xForm 4#6 rt ra rb 392#10 rc
  | .and rs ra rb rc => xForm 31#6 rs ra rb 28#10 rc
  | .andc rs ra rb rc => xForm 31#6 rs ra rb 60#10 rc
  | .andi rs ra im => dForm 28#6 rs ra im
  | .andis rs ra im => dForm 29#6 rs ra im
  | .cntlzw rs ra rc => xForm 31#6 rs ra 0#5 26#10 rc
  | .eqv rs ra rb rc => xForm 31#6 rs ra rb 284#10 rc
  | .extsb rs ra rc => xForm 31#6 rs ra 0#5 954#10 rc
  | .extsh rs ra rc => xForm 31#6 rs ra 0#5 922#10 rc
  | .nand rs ra rb rc => xForm 31#6 rs ra rb 476#10 rc
  | .nor rs ra rb rc => xForm 31#6 rs ra rb 124#10 rc
  | .or rs ra rb rc => xForm 31#6 rs ra rb 444#10 rc
  | .orc rs ra rb rc => xForm 31#6 rs ra rb 412#10 rc
  | .ori rs ra im => dForm 24#6 rs ra im
  | .oris rs ra im => dForm 25#6 rs ra im
  | .xor rs ra rb rc => xForm 31#6 rs ra rb 316#10 rc
  | .xori rs ra im => dForm 26#6 rs ra im
  | .xoris rs ra im => dForm 27#6 rs ra im
  | .cmp bf ra rb nr => xForm 31#6 (bf ++ 0#2) ra rb 0#10 nr
  | .cmpi bf ra im => dForm 11#6 (bf ++ 0#2) ra im
  | .cmpl bf ra rb nr => xForm 31#6 (bf ++ 0#2) ra rb 32#10 nr
  | .cmpli bf ra im => dForm 10#6 (bf ++ 0#2) ra im
  | .b li aa lk => iForm 18#6 li aa lk
  | .bc bo bi bd aa lk => bForm 16#6 bo bi bd aa lk
  | .bcctr bo bi lk => xForm 19#6 bo bi 0#5 528#10 lk
  | .bclr bo bi lk => xForm 19#6 bo bi 0#5 16#10 lk
  | .crand bt ba bb nr => xForm 19#6 bt ba bb 257#10 nr
  | .crandc bt ba bb nr => xForm 19#6 bt ba bb 129#10 nr
  | .creqv bt ba bb nr => xForm 19#6 bt ba bb 289#10 nr
  | .crnand bt ba bb nr => xForm 19#6 bt ba bb 225#10 nr
  | .crnor bt ba bb nr => xForm 19#6 bt ba bb 33#10 nr
  | .cror bt ba bb nr => xForm 19#6 bt ba bb 449#10 nr
  | .crorc bt ba bb nr => xForm 19#6 bt ba bb 417#10 nr
  | .crxor bt ba bb nr => xForm 19#6 bt ba bb 193#10 nr
  | .mcrf bf bfa nr => xForm 19#6 (bf ++ 0#2) (bfa ++ 0#2) 0#5 0#10 nr
  | .rlwimi rs ra sh mb me rc => mForm 20#6 rs ra sh mb me rc
  | .rlwinm rs ra sh mb me rc => mForm 21#6 rs ra sh mb me rc
  | .rlwnm rs ra rb mb me rc => mForm 23#6 rs ra rb mb me rc
  | .slw rs ra rb rc => xForm 31#6 rs ra rb 24#10 rc
  | .sraw rs ra rb rc => xForm 31#6 rs ra rb 792#10 rc
  | .srawi rs ra sh rc => xForm 31#6 rs ra sh 824#10 rc
  | .srw rs ra rb rc => xForm 31#6 rs ra rb 536#10 rc
  | .dcba ra rb nr => xForm 31#6 0#5 ra rb 758#10 nr
  | .dcbf ra rb nr => xForm 31#6 0#5 ra rb 86#10 nr
  | .dcbi ra rb nr => xForm 31#6 0#5 ra rb 470#10 nr
  | .dcbst ra rb nr => xForm 31#6 0#5 ra rb 54#10 nr
  | .dcbt ra rb nr => xForm 31#6 0#5 ra rb 278#10 nr
  | .dcbtst ra rb nr => xForm 31#6 0#5 ra rb 246#10 nr
  | .dcbz ra rb nr => xForm 31#6 0#5 ra rb 1014#10 nr
  | .dccci ra rb nr => xForm 31#6 0#5 ra rb 454#10 nr
  | .dcread rt ra rb nr => xForm 31#6 rt ra rb 486#10 nr
  | .icbi ra rb nr => xForm 31#6 0#5 ra rb 982#10 nr
  | .icbt ra rb nr => xForm 31#6 0#5 ra rb 262#10 nr
  | .iccci ra rb nr => xForm 31#6 0#5 ra rb 966#10 nr
  | .icread ra rb nr => xForm 31#6 0#5 ra rb 998#10 nr
  | .mfmsr rt nr => xForm 31#6 rt 0#5 0#5 83#10 nr
  | .mtmsr rs nr => xForm 31#6 rs 0#5 0#5 146#10 nr
  | .rfci nr => xForm 19#6 0#5 0#5 0#5 51#10 nr
  | .rfi nr => xForm 19#6 0#5 0#5 0#5 50#10 nr
  | .wrtee rs nr => xForm 31#6 rs 0#5 0#5 131#10 nr
  | .wrteei e nr => xForm 31#6 0#5 0#5 (BitVec.ofBool e ++ 0#4) 163#10 nr
  | .tlbia nr => xForm 31#6 0#5 0#5 0#5 370#10 nr
  | .tlbre rt ra ws nr => xForm 31#6 rt ra ws 946#10 nr
  | .tlbsync nr => xForm 31#6 0#5 0#5 0#5 566#10 nr
  | .tlbsx rt ra rb rc => xForm 31#6 rt ra rb 914#10 rc
  | .tlbwe rs ra ws nr => xForm 31#6 rs ra ws 978#10 nr
  | .eieio nr => xForm 31#6 0#5 0#5 0#5 854#10 nr
  | .isync nr => xForm 19#6 0#5 0#5 0#5 150#10 nr
  | .mcrxr bf nr => xForm 31#6 (bf ++ 0#2) 0#5 0#5 512#10 nr
  | .mfcr rt nr => xForm 31#6 rt 0#5 0#5 19#10 nr
  | .mfdcr rt dcrn nr => xForm 31#6 rt (loHalf dcrn) (hiHalf dcrn) 323#10 nr
  | .mtcrf rs fxm nr => xForm 31#6 rs (0#1 ++ fxm.extractLsb' 4 4) (fxm.extractLsb' 0 4 ++ 0#1) 144#10 nr
  | .mtdcr rs dcrn nr => xForm 31#6 rs (loHalf dcrn) (hiHalf dcrn) 451#10 nr
  | .sync nr => xForm 31#6 0#5 0#5 0#5 598#10 nr
  | .mfspr rt sprn nr => xForm 31#6 rt (loHalf sprn) (hiHalf sprn) 339#10 nr
  | .mftb rt tbrn nr => xForm 31#6 rt (loHalf tbrn) (hiHalf tbrn) 371#10 nr
  | .mtspr rs sprn nr => xForm 31#6 rs (loHalf sprn) (hiHalf sprn) 467#10 nr
  | .sc => iForm 17#6 0#24 true false
  | .tw tcond ra rb nr => xForm 31#6 tcond ra rb 4#10 nr
  | .twi tcond ra im => dForm 3#6 tcond ra im

/-- The bytes of an instruction, lowest address first, in a big-endian region. -/
def encode (i : Instr) : List Byte := bytesOfWord (encodeWord i)

end Sys2Proof
end

