-- ==== Sys2Proof/Machine/Fetch.lean ====
section
/-! DEFINITION. Fetching an instruction, and what an encoding that is no core instruction does (20_memory.md R126, R146,
60_exceptions.md R631, R635, R640 to R642, R649). -/
namespace Sys2Proof.Machine

/-- Where the word at an address is fetched: its real address and whether its region is little endian; or what stops it. -/
inductive FetchPlace where
  | real (ra : Word) (little : Bool)
  | stopped (r : Result)

/-- Translate and check a fetch at pc: TLB match, zone, EX, guarded (R146, R148, 60_exceptions.md R618). -/
def State.fetchPlace (s : State) : FetchPlace :=
  if s.irBit then
    match s.lookup s.pc with
    | .miss => .stopped (.next (instructionTlbMissInterrupt s))
    | .duplicate => .stopped (.refused .duplicateTlbEntries)
    | .hit _ t =>
      if s.zoneDenies t then .stopped (.next (instructionStorageInterrupt true s))
      else if !(t.ex || s.zoneOverrides t) then .stopped (.next (instructionStorageInterrupt false s))
      else if t.g then .stopped (.next (instructionStorageInterrupt false s))
      else .real (t.realAddress s.pc) t.e
  else .real s.pc (s.realFetchAttributes s.pc).e

/-- The real addresses of the four bytes of a word. -/
def wordRealAddresses (ra : Word) : List Word := byteAddresses ra 4

/-- Byte k of the word at real address ra: a device's answer to a word access, or storage (20_memory.md R180, D9). DESIGN
CHOICE (log entry 35; unsafe): over ranges of different kinds that of the first byte counts. -/
def State.fetchedByte (s : State) (ra : Word) (k : Nat) : Byte :=
  if s.isDevice ra then Config.deviceByte s.hostLog ra 4 k else Memory.read s.mem (ra + BitVec.ofNat 32 k).toNat

/-- The bytes of the instruction at a place, most significant first (R126). -/
def State.fetchBytes (s : State) (ra : Word) (little : Bool) : List Byte :=
  let bytes := (List.range 4).map (s.fetchedByte ra)
  if little then bytes.reverse else bytes

/-- A fetch: the bytes, or the interrupt or refusal in their place (R631: a bus error; U16 with MSR[ME] = 0). -/
def State.fetch (s : State) : Except Result (List Byte) :=
  match s.fetchPlace with
  | .stopped r => .error r
  | .real ra little =>
    if s.busError false (wordRealAddresses ra) then
      .error (if s.meBit then .next (instructionMachineCheck s) else .refused .fetchBusError)
    else .ok (s.fetchBytes ra little)

/-- The machine after a fetch: a device has seen it. DESIGN CHOICE (log entry 37; unsafe): only an instruction that is to be
executed is fetched; the speculative fetches that 20_memory.md R156 allows in non-guarded storage are not made. -/
def State.afterFetch (s : State) : State :=
  match s.fetchPlace with
  | .real ra _ => if s.isDevice ra then { s with hostLog := .load ra 4 :: s.hostLog } else s
  | .stopped _ => s

/-- What an encoding that is no core instruction does: Program with ESR[PIL]; with a floating-point or auxiliary unit
attached, its Unavailable interrupt, or a refusal where the unit would execute it (R640 to R642, D7, D19, U7). -/
def rejected (e : DecodeError) (s : State) : Result :=
  match e with
  | .truncated | .illegalPrimary _ | .illegalExtended _ _ => .next (programInterrupt .illegal s)
  | .floatingPoint _ _ =>
    if !s.fpuPresent then .next (programInterrupt .illegal s)
    else if s.fpBit then .refused .fpuAttached
    else .next (takeInterrupt .fpuUnavailable s.pc s)
  | .auxiliary _ =>
    if !s.apuPresent then .next (programInterrupt .illegal s)
    else if s.apBit then .refused .apuAttached
    else .next (takeInterrupt .apuUnavailable s.pc s)

/-- Storage with a word at real address ra, in the byte order of its region. -/
def storeInstruction (m : List Host.Cell) (ra : Word) (little : Bool) (w : Word) : List Host.Cell :=
  let bytes := bytesOfWord w
  ((wordRealAddresses ra).zip (if little then bytes.reverse else bytes)).foldl (fun m p => Memory.write m p.1.toNat p.2) m

end Sys2Proof.Machine
end

