-- ==== Sys2Proof/Machine/Step.lean ====
section
/-! DEFINITION. One step: the host's input, the timers, an asynchronous interrupt or one instruction
(60_exceptions.md R610). -/
namespace Sys2Proof.Machine

/-- Execute a decoded instruction with the debug events around it (R671, R676). -/
def executeInstr (i : Instr) (s : State) : Result :=
  beforeInstruction (branchEvents i s) s fun s =>
    match exec i s with
    | .next t => .next (afterInstruction (dacEvents i s t) (underCompares i s t))
    | .fault f => .fault f
    | .refused r => .refused r

/-- The end of a step that took an interrupt without executing an instruction. -/
def tookInterrupt : Result → Result
  | .next t => .next (recordException t)
  | .fault f => .fault f
  | .refused r => .refused r

/-- Fetch, decode and execute the instruction at pc (R610 (c), (d)). -/
def executeNext (s : State) : Result :=
  beforeInstruction s.iacEvents s fun s =>
    match s.fetch with
    | .error r => tookInterrupt r
    | .ok bytes =>
      match decode bytes with
      | .ok (i, _) => executeInstr i s.afterFetch
      | .error e => tookInterrupt (rejected e s.afterFetch)

/-- A boundary with this step's input: a pending interrupt, the wait state, or the next instruction (R610, R616). -/
def boundary (input : HostInput) (s : State) : Result :=
  match s.debugRefusal with
  | some r => .refused r
  | none =>
    match pendingInterrupts input s with
    | k :: _ => .next (recordException (takeInterrupt k s.pc s))
    | [] =>
      if s.weBit then (if s.waitsForEver then .fault .halted else .next s)
      else executeNext s

/-- One step of the machine. DESIGN CHOICE (log entry 17; unsafe): a reset request comes before the ticks of the same input, which
are dropped. -/
def step (s : State) : Host.Outcome State Fault Refusal :=
  let input := s.inputs.headD HostInput.idle
  let s0 : State := { s with inputs := s.inputs.tail, entry := none }
  match input.reset with
  | some t => .next (resetMachine t none s0)
  | none => boundary input (recordUnconditional input.unconditionalDebug (ticks input.ticks s0))

/-- The state with an instruction word stored where the next step fetches it. -/
def State.withFetchWord (s : State) (nbits w : Nat) : State :=
  match s.fetchPlace with
  | .real ra little => { s with mem := storeInstruction s.mem ra little (BitVec.ofNat 32 (w % 2 ^ nbits)) }
  | .stopped _ => s

end Sys2Proof.Machine
end

