-- ==== Sys2Proof/Safety.lean ====
section
/-! DEFINITION. The terms in which claims about the machine are stated: the invariant, when an access passes its checks,
what an instruction leaves alone, and results in exact arithmetic. -/
namespace Sys2Proof.Machine

/-! ## The invariant of every reachable state -/

/-- Storage is canonical, pc is word aligned (10_state.md R32), and the unimplemented bits of each register are 0 (R34, D21). -/
structure State.Inv (s : State) : Prop where
  storage : Memory.wf s.mem = true
  aligned : misaligned s.pc = false
  xer : s.xer &&& ~~~xerMask = 0
  msr : s.msr &&& ~~~msrMask = 0
  srr0 : s.srr0 &&& ~~~srrMask = 0
  srr2 : s.srr2 &&& ~~~srrMask = 0
  resetVector : misaligned s.resetVector = false
  evpr : s.evpr &&& ~~~evprMask = 0
  esr : s.esr &&& ~~~esrMask = 0
  pid : s.pid &&& ~~~pidMask = 0
  tcr : s.tcr &&& ~~~tcrMask = 0
  tsr : s.tsr &&& ~~~tsrMask = 0
  ccr0 : s.ccr0 &&& ~~~ccr0Mask = 0
  dbcr0 : s.dbcr0 &&& ~~~dbcr0Mask = 0
  dbcr1 : s.dbcr1 &&& ~~~dbcr1Mask = 0
  dbsr : s.dbsr &&& ~~~dbsrMask = 0
  iac1 : s.iac1 &&& ~~~iacMask = 0
  iac2 : s.iac2 &&& ~~~iacMask = 0
  iac3 : s.iac3 &&& ~~~iacMask = 0
  iac4 : s.iac4 &&& ~~~iacMask = 0

/-! ## Accesses that pass their checks -/

/-- The byte at an effective address passes translation and protection, and storage answers: RAM, or for a load read-only
memory (20_memory.md R150, R180). -/
def State.accessible (s : State) (store : Bool) (ea : Word) : Bool :=
  match s.translateData store ea with
  | .real ra _ => s.regionKind ra == none || (!store && s.regionKind ra == some .rom)
  | .miss | .denied _ _ | .duplicate => false

/-- Every byte of an operand is accessible. -/
def State.allAccessible (s : State) (store : Bool) (eas : List Word) : Bool := eas.all (s.accessible store)

/-- The byte at effective address `ea`, as a data access of either kind finds it. -/
def State.byteAt (s : State) (store : Bool) (ea : Word) : Byte := Memory.read s.mem (s.realData store ea).toNat

/-- The bytes of an operand, lowest address first. -/
def State.bytesAt (s : State) (store : Bool) (ea : Word) (n : Nat) : List Byte :=
  (byteAddresses ea n).map (s.byteAt store)

/-- Bytes in significance order, most significant first, from their order in storage (20_memory.md R124, R125, R130). -/
def inOrder (little : Bool) (bs : List Byte) : List Byte := if little then bs.reverse else bs

/-- The number that bytes spell, the first one most significant. -/
def bigEndianNat (bs : List Byte) : Nat := bs.foldl (fun n b => 256 * n + b.toNat) 0

/-- The number a load of n bytes at `ea` reads (R130). -/
def State.loaded (s : State) (ea : Word) (n : Nat) : Nat :=
  bigEndianNat (inOrder (s.littleData false ea) (s.bytesAt false ea n))

/-- Byte k, counted from the most significant of n, of the n low-order bytes of a number. -/
def byteOfNat (n k v : Nat) : Nat := v / 256 ^ (n - 1 - k) % 256

/-- A halfword read as a signed number. -/
def signedHalf (v : Nat) : Int := (BitVec.ofNat 16 v).toInt

/-- The number a byte-reversed load of n bytes at `ea` reads (40_storage_reference.md R291). -/
def State.loadedReversed (s : State) (ea : Word) (n : Nat) : Nat :=
  bigEndianNat (inOrder (!s.littleData false ea) (s.bytesAt false ea n))

/-- The byte at an effective address passes translation and protection (20_memory.md R150). -/
def State.permitted (s : State) (store : Bool) (ea : Word) : Bool :=
  match s.translateData store ea with
  | .real _ _ => true
  | .miss | .denied _ _ | .duplicate => false

/-- Storage holds the n low-order bytes of v at ea, in little-endian order or not (R125). -/
def Holds (little : Bool) (ea : Word) (n v : Nat) (s t : State) : Prop :=
  ∀ k, k < n → (Memory.read t.mem (s.realData true (ea + BitVec.ofNat 32 k)).toNat).toNat
      = byteOfNat n (if little then n - 1 - k else k) v

/-- Every byte but the n at ea is as before. -/
def KeptOutside (ea : Word) (n : Nat) (s t : State) : Prop :=
  ∀ a, (∀ k, k < n → a ≠ (s.realData true (ea + BitVec.ofNat 32 k)).toNat) → Memory.read t.mem a = Memory.read s.mem a

/-- After a store of the n low-order bytes of v at ea: storage holds them in the region's order, and every other byte is as
before (R130). -/
def Stored (ea : Word) (n v : Nat) (s t : State) : Prop := Holds (s.littleData true ea) ea n v s t ∧ KeptOutside ea n s t

/-- As `Stored`, for the byte-reversed stores (40_storage_reference.md R293). -/
def StoredReversed (ea : Word) (n v : Nat) (s t : State) : Prop :=
  Holds (!s.littleData true ea) ea n v s t ∧ KeptOutside ea n s t

/-! ## Page matching in exact arithmetic (20_memory.md R142, R143) -/

/-- The page size in bytes: 1 KB x 4^size. -/
def TlbEntry.pageBytes (e : TlbEntry) : Nat := 1024 * 4 ^ e.size.toNat

/-- A valid entry whose page holds the address, for this PID or for all. -/
def TlbEntry.MatchesPage (e : TlbEntry) (pid : BitVec 8) (ea : Word) : Prop :=
  e.v = true ∧ (e.tid = 0 ∨ e.tid = pid) ∧ ea.toNat / e.pageBytes = e.epn.toNat * 1024 / e.pageBytes

/-! ## What an instruction leaves alone -/

/-- Every general register but those listed is as before. -/
def RegsKept (except : List Reg) (s t : State) : Prop := ∀ r, r ∉ except → t.reg r = s.reg r

/-- The general registers, CR, XER and pc may have changed (and the model's count of free values); storage, every other
register and everything else is as before. -/
def OnlyUserResults (s t : State) : Prop :=
  t = { s with gpr := t.gpr, cr := t.cr, xer := t.xer, pc := t.pc, freeCount := t.freeCount }

/-- CR is as before, but for field 0 if the reserved bit 31 was 1 (30_encoding.md R246 (b), U1). -/
def CrKept (nr : Bool) (s t : State) : Prop :=
  (nr = false → t.cr = s.cr) ∧ ∀ k, k ≠ 0 → crField t.cr k = crField s.cr k

/-- The instruction is done: pc is at the next one, everything else is as before but CR0 if bit 31 was 1. -/
def OnlyAdvances (nr : Bool) (s t : State) : Prop :=
  t = { s with cr := t.cr, pc := s.pc + 4, freeCount := t.freeCount } ∧ CrKept nr s t

/-- The instruction i runs from s to a next state with the property P. -/
def RunsTo (i : Instr) (s : State) (P : State → Prop) : Prop := ∃ t, exec i s = .next t ∧ P t

/-- Only the listed general registers, storage and pc (which is at the next instruction) may have changed, and CR0 if bit 31
was 1 (with the model's count of free values). -/
def OnlyMoves (written : List Reg) (nr : Bool) (s t : State) : Prop :=
  RegsKept written s t ∧ CrKept nr s t ∧
  t = { s with gpr := t.gpr, cr := t.cr, mem := t.mem, pc := s.pc + 4, freeCount := t.freeCount }

/-- Register rt becomes v; nothing else changes but pc, and CR0 if bit 31 was 1. -/
def Loads (rt : Reg) (v : Word) (nr : Bool) (s t : State) : Prop :=
  t.reg rt = v ∧ OnlyMoves [rt] nr s t ∧ t.mem = s.mem

/-- No general register, only storage and pc, may have changed, and CR0 if bit 31 was 1. -/
def OnlyStores (nr : Bool) (s t : State) : Prop := OnlyMoves [] nr s t

/-- The condition register may have changed, and pc, which is at the next instruction; nothing else. -/
def OnlyCr (s t : State) : Prop := t = { s with cr := t.cr, pc := s.pc + 4, freeCount := t.freeCount }

/-- CR field bf becomes v and the other fields are as before; CR0 is free if bit 31 was 1. -/
def FieldBecomes (bf : BitVec 3) (v : BitVec 4) (nr : Bool) (s t : State) : Prop :=
  (nr = false ∨ bf ≠ 0 → crField t.cr bf = v) ∧ ∀ k, k ≠ bf → (nr = false ∨ k ≠ 0) → crField t.cr k = crField s.cr k

/-! ## Bytes a reference presents -/

/-- Byte k of the operand belongs to a register that lmw, lswi or lswx does not load, and is not accessed
(41_storage_multiple_string_sync.md R311, R313, R314). -/
def SkipsByte (i : Instr) (s : State) (k : Nat) : Prop :=
  (∃ rt ra d, i = .lmw rt ra d ∧ rt.toNat + k / 4 = ra.toNat ∧ ra ≠ 31) ∨
  (∃ rt ra nb nr, i = .lswi rt ra nb nr ∧ stringLoads rt [ra.toNat] (stringCount nb) (stringReg rt k) = false) ∨
  (∃ rt ra rb nr, i = .lswx rt ra rb nr ∧
    stringLoads rt [ra.toNat, rb.toNat] (xerTbc s.xer) (stringReg rt k) = false)

/-- Every accessed byte of the operand before byte k passes translation and protection; byte k is accessed. -/
def ReachesByte (i : Instr) (s : State) (store : Bool) (ea : Word) (n k : Nat) : Prop :=
  k < n ∧ ¬SkipsByte i s k ∧ ∀ j, j < k → ¬SkipsByte i s j → s.permitted store (ea + BitVec.ofNat 32 j) = true

/-- The loads and stores of one operand (40_storage_reference.md). -/
def scalarReferences (rt ra rb : Reg) (d : BitVec 16) (nr : Bool) : List Instr :=
  [.lbz rt ra d, .lbzu rt ra d, .lbzux rt ra rb nr, .lbzx rt ra rb nr, .lha rt ra d, .lhau rt ra d, .lhaux rt ra rb nr,
   .lhax rt ra rb nr, .lhz rt ra d, .lhzu rt ra d, .lhzux rt ra rb nr, .lhzx rt ra rb nr, .lwz rt ra d, .lwzu rt ra d,
   .lwzux rt ra rb nr, .lwzx rt ra rb nr, .stb rt ra d, .stbu rt ra d, .stbux rt ra rb nr, .stbx rt ra rb nr, .sth rt ra d,
   .sthu rt ra d, .sthux rt ra rb nr, .sthx rt ra rb nr, .stw rt ra d, .stwu rt ra d, .stwux rt ra rb nr, .stwx rt ra rb nr,
   .lhbrx rt ra rb nr, .lwbrx rt ra rb nr, .sthbrx rt ra rb nr, .stwbrx rt ra rb nr]

/-- The multiple and string instructions (41_storage_multiple_string_sync.md). -/
def multipleReferences (rt ra rb : Reg) (d : BitVec 16) (nb : BitVec 5) (nr : Bool) : List Instr :=
  [.lmw rt ra d, .stmw rt ra d, .lswi rt ra nb nr, .lswx rt ra rb nr, .stswi rt ra nb nr, .stswx rt ra rb nr]

/-- The other unprivileged instructions that translate an operand address. -/
def otherReferences (rt ra rb : Reg) (nr : Bool) : List Instr :=
  [.lwarx rt ra rb nr, .stwcx rt ra rb, .dcbf ra rb nr, .dcbst ra rb nr, .dcbz ra rb nr, .icbi ra rb nr]

/-- The privileged instructions that translate an operand address. -/
def privilegedReferences (rt ra rb : Reg) (nr : Bool) : List Instr :=
  [.dcbi ra rb nr, .dccci ra rb nr, .dcread rt ra rb nr, .icread ra rb nr]

/-! ## The forms of the scalar loads and stores, and what each leaves (40_storage_reference.md) -/

/-- A load of one operand: its width, whether it is sign-extended, byte-reversed, updates RA, and its reserved bit 31. -/
structure ScalarLoad where
  instr : Instr
  width : Nat
  signed : Bool
  reversed : Bool
  update : Bool
  nr : Bool

/-- A store of one operand. -/
structure ScalarStore where
  instr : Instr
  width : Nat
  reversed : Bool
  update : Bool
  nr : Bool

/-- The eighteen loads (R263 to R278, R291, R292). -/
def scalarLoads (rt ra rb : Reg) (d : BitVec 16) (nr : Bool) : List ScalarLoad :=
  [⟨.lbz rt ra d, 1, false, false, false, false⟩, ⟨.lbzu rt ra d, 1, false, false, true, false⟩,
   ⟨.lbzx rt ra rb nr, 1, false, false, false, nr⟩, ⟨.lbzux rt ra rb nr, 1, false, false, true, nr⟩,
   ⟨.lhz rt ra d, 2, false, false, false, false⟩, ⟨.lhzu rt ra d, 2, false, false, true, false⟩,
   ⟨.lhzx rt ra rb nr, 2, false, false, false, nr⟩, ⟨.lhzux rt ra rb nr, 2, false, false, true, nr⟩,
   ⟨.lha rt ra d, 2, true, false, false, false⟩, ⟨.lhau rt ra d, 2, true, false, true, false⟩,
   ⟨.lhax rt ra rb nr, 2, true, false, false, nr⟩, ⟨.lhaux rt ra rb nr, 2, true, false, true, nr⟩,
   ⟨.lwz rt ra d, 4, false, false, false, false⟩, ⟨.lwzu rt ra d, 4, false, false, true, false⟩,
   ⟨.lwzx rt ra rb nr, 4, false, false, false, nr⟩, ⟨.lwzux rt ra rb nr, 4, false, false, true, nr⟩,
   ⟨.lhbrx rt ra rb nr, 2, false, true, false, nr⟩, ⟨.lwbrx rt ra rb nr, 4, false, true, false, nr⟩]

/-- The fourteen stores (R279 to R290, R293, R294). -/
def scalarStores (rs ra rb : Reg) (d : BitVec 16) (nr : Bool) : List ScalarStore :=
  [⟨.stb rs ra d, 1, false, false, false⟩, ⟨.stbu rs ra d, 1, false, true, false⟩,
   ⟨.stbx rs ra rb nr, 1, false, false, nr⟩, ⟨.stbux rs ra rb nr, 1, false, true, nr⟩,
   ⟨.sth rs ra d, 2, false, false, false⟩, ⟨.sthu rs ra d, 2, false, true, false⟩,
   ⟨.sthx rs ra rb nr, 2, false, false, nr⟩, ⟨.sthux rs ra rb nr, 2, false, true, nr⟩,
   ⟨.stw rs ra d, 4, false, false, false⟩, ⟨.stwu rs ra d, 4, false, true, false⟩,
   ⟨.stwx rs ra rb nr, 4, false, false, nr⟩, ⟨.stwux rs ra rb nr, 4, false, true, nr⟩,
   ⟨.sthbrx rs ra rb nr, 2, true, false, nr⟩, ⟨.stwbrx rs ra rb nr, 4, true, false, nr⟩]

/-- The value of a load whose bytes, lowest address first, are f. -/
def ScalarLoad.value (l : ScalarLoad) (little : Bool) (f : Nat → Byte) : Word :=
  let v := bigEndianNat (inOrder (little != l.reversed) ((List.range l.width).map f))
  if l.signed then BitVec.ofInt 32 (signedHalf v) else BitVec.ofNat 32 v

/-- After a load whose bytes are f: RT holds its value and an update form's RA the effective address (free in the invalid
forms RA = 0 and RA = RT, U2); nothing else has changed but pc, the host's log, and CR0 if bit 31 was 1. -/
def ScalarLoad.Leaves (l : ScalarLoad) (rt ra : Reg) (ea : Word) (little : Bool) (f : Nat → Byte) (s t : State) : Prop :=
  ((l.update = true → ra ≠ rt) → t.reg rt = l.value little f) ∧ (l.update = true → ra ≠ 0 → ra ≠ rt → t.reg ra = ea) ∧
  OnlyMoves (if l.update then [rt, ra] else [rt]) l.nr { s with hostLog := t.hostLog } t ∧ t.mem = s.mem

/-- Byte k, from the lowest address, of a store of v. -/
def ScalarStore.byte (l : ScalarStore) (little : Bool) (v k : Nat) : Nat :=
  byteOfNat l.width (if little != l.reversed then l.width - 1 - k else k) v

/-- After a store: an update form's RA holds the effective address (free if RA = 0, U2); no other register has changed. -/
def ScalarStore.Leaves (l : ScalarStore) (ra : Reg) (ea : Word) (s t : State) : Prop :=
  (l.update = true → ra ≠ 0 → t.reg ra = ea) ∧
  OnlyMoves (if l.update then [ra] else []) l.nr { s with hostLog := t.hostLog } t

/-- After lmw whose bytes from ea on are f: each register from RT on, but RA (free, U2), holds its word in the order of the
word's region; the others are as before (41_storage_multiple_string_sync.md R311). -/
def LoadsMultiple (rt ra : Reg) (ea : Word) (f : Nat → Byte) (s t : State) : Prop :=
  (∀ q : Reg, rt ≤ q → q ≠ ra → t.reg q = BitVec.ofNat 32 (bigEndianNat (inOrder
    (s.littleData false (ea + BitVec.ofNat 32 (4 * (q.toNat - rt.toNat))))
    ((List.range 4).map fun b => f (4 * (q.toNat - rt.toNat) + b))))) ∧
  (∀ q : Reg, q < rt → t.reg q = s.reg q) ∧
  t = { s with gpr := t.gpr, pc := s.pc + 4, freeCount := t.freeCount, hostLog := t.hostLog }

/-- The j-th register a string load fills (R313). -/
def stringTarget (rt : Reg) (j : Nat) : Nat := (rt.toNat + j) % 32

/-- After lswi or lswx whose bytes from ea on are f: each register of the range but the bases (free, U2) holds four bytes, the
missing ones 0; the registers outside are as before (R313, R314). -/
def FillsRegisters (rt : Reg) (bases : List Reg) (count : Nat) (nr : Bool) (f : Nat → Byte) (s t : State) : Prop :=
  (∀ (j : Nat) (q : Reg), j < (count + 3) / 4 → q.toNat = stringTarget rt j → q ∉ bases →
    t.reg q = BitVec.ofNat 32 (bigEndianNat ((List.range 4).map fun b => if 4 * j + b < count then f (4 * j + b) else 0))) ∧
  (∀ q : Reg, (∀ j, j < (count + 3) / 4 → q.toNat ≠ stringTarget rt j) → t.reg q = s.reg q) ∧
  CrKept nr s t ∧
  t = { s with gpr := t.gpr, cr := t.cr, pc := s.pc + 4, freeCount := t.freeCount, hostLog := t.hostLog }

/-- A single access of n bytes at a meets a bus error: the device at its first byte does not answer that width, or nothing
answers at one of its bytes (20_memory.md R180). -/
def AccessFails (s : State) (store : Bool) (a : Word) (n : Nat) : Prop :=
  (∃ loads stores, s.regionKind (s.realData store a) = some (.device loads stores) ∧
    n ∉ (if store then stores else loads)) ∨
  ∃ j, j < n ∧ s.regionKind (s.realData store (a + BitVec.ofNat 32 j)) = some .hole

/-- The single access that moves byte k, in elements of w bytes from ea on, meets a bus error: the access of its element if that
is naturally aligned, else of the byte alone (20_memory.md R133, D8). -/
def FailsAt (s : State) (store : Bool) (ea : Word) (w k : Nat) : Prop :=
  let element := ea + BitVec.ofNat 32 (k / w * w)
  if element.toNat % w = 0 then AccessFails s store element w else AccessFails s store (ea + BitVec.ofNat 32 k) 1

/-- Storage after a store of n bytes at ea in elements of w bytes: byte k is `byte k` where RAM answers and its access meets no
bus error, and no other byte has changed. -/
def StoredInRam (ea : Word) (w n : Nat) (byte : Nat → Nat) (s t : State) : Prop :=
  let stored (k : Nat) : Prop := s.isRam (s.realData true (ea + BitVec.ofNat 32 k)) = true ∧ ¬FailsAt s true ea w k
  (∀ k, k < n → stored k → (Memory.read t.mem (s.realData true (ea + BitVec.ofNat 32 k)).toNat).toNat = byte k) ∧
  ∀ a, (∀ k, k < n → stored k → a ≠ (s.realData true (ea + BitVec.ofNat 32 k)).toNat) →
    Memory.read t.mem a = Memory.read s.mem a

/-- Byte k that stmw stores: the bytes of each register in the order of its word's region. -/
def multipleByte (rs : Reg) (ea : Word) (s : State) (k : Nat) : Nat :=
  byteOfNat 4 (if s.littleData true (ea + BitVec.ofNat 32 (4 * (k / 4))) then 3 - k % 4 else k % 4)
    (s.reg (BitVec.ofNat 5 (rs.toNat + k / 4))).toNat

/-- Byte k that a string store stores: each register from its most significant byte down (R315). -/
def stringByteOf (rs : Reg) (s : State) (k : Nat) : Nat :=
  byteOfNat 4 (k % 4) (s.reg (BitVec.ofNat 5 ((rs.toNat + k / 4) % 32))).toNat

/-! ## Devices: one access if the operand is naturally aligned, else its bytes in increasing address order (D8, R133) -/

/-- The host has seen these accesses in order, and no other. -/
def Sees (accesses : List HostAccess) (s t : State) : Prop := t.hostLog = accesses.reverse ++ s.hostLog

/-- The accesses of a load of n bytes at ea. -/
def State.deviceLoads (s : State) (ea : Word) (n : Nat) : List HostAccess :=
  if ea.toNat % n = 0 then [.load (s.realData false ea) n]
  else (List.range n).map fun k => .load (s.realData false (ea + BitVec.ofNat 32 k)) 1

/-- Byte i of such a load after the accesses `before`: the device's answer to its access. -/
def State.deviceAnswer (s : State) (before : List HostAccess) (ea : Word) (n i : Nat) : Byte :=
  if ea.toNat % n = 0 then Config.deviceByte (before.reverse ++ s.hostLog) (s.realData false ea) n i
  else
    let earlier := (List.range i).map fun k => HostAccess.load (s.realData false (ea + BitVec.ofNat 32 k)) 1
    Config.deviceByte ((before ++ earlier).reverse ++ s.hostLog) (s.realData false (ea + BitVec.ofNat 32 i)) 1 0

/-- The accesses of a store of n bytes at ea. -/
def State.deviceStores (s : State) (ea : Word) (n : Nat) (byte : Nat → Nat) : List HostAccess :=
  if ea.toNat % n = 0 then [.store (s.realData true ea) ((List.range n).map fun k => BitVec.ofNat 8 (byte k))]
  else (List.range n).map fun k => .store (s.realData true (ea + BitVec.ofNat 32 k)) [BitVec.ofNat 8 (byte k)]

/-- Each byte of an operand of n bytes at ea passes its checks and is a device's, which answers the access that moves it. -/
def State.allDevice (s : State) (store : Bool) (ea : Word) (n : Nat) : Prop :=
  ∀ k, k < n → s.permitted store (ea + BitVec.ofNat 32 k) = true ∧
    s.isDevice (s.realData store (ea + BitVec.ofNat 32 k)) = true ∧ ¬FailsAt s store ea n k

/-! ## Branches (45_branch_cr_logical.md R451) -/

/-- CTR after the decrement that BO[2] = 0 asks for. -/
def counted (bo : BitVec 5) (s : State) : Word := if bo.getMsbD 2 then s.ctr else s.ctr - 1

/-- The condition of a branch holds: BO[2] = 1 or (CTR = 0) = BO[3], and BO[0] = 1 or the CR bit equals BO[1]. -/
def Taken (bo bi : BitVec 5) (s : State) : Prop :=
  (bo.getMsbD 2 = true ∨ (counted bo s = 0 ↔ bo.getMsbD 3 = true)) ∧ (bo.getMsbD 0 = true ∨ crBit s.cr bi = bo.getMsbD 1)

/-- The instruction is a branch that will be taken. -/
def BranchesAway (i : Instr) (s : State) : Prop :=
  (∃ li aa lk, i = .b li aa lk) ∨
  ∃ bo bi lk, Taken bo bi s ∧ ((∃ bd aa, i = .bc bo bi bd aa lk) ∨ i = .bclr bo bi lk ∨ i = .bcctr bo bi lk)

/-! ## Flags -/

/-- CR0 compares r with 0 as a signed number and copies the final XER[SO] (00_scope.md R12); the other fields are as before. -/
def Cr0Records (r : Word) (s t : State) : Prop :=
  (∀ k, k ≠ 0 → crField t.cr k = crField s.cr k) ∧
  crBit t.cr 0 = decide (r.toInt < 0) ∧ crBit t.cr 1 = decide (0 < r.toInt) ∧ crBit t.cr 2 = decide (r.toInt = 0) ∧
  crBit t.cr 3 = xerSo t.xer

/-- XER[CA] and XER[OV] become the given values, XER[SO] is sticky, each is as before if none is given, and so are the other
bits of XER (00_scope.md R13, R14). -/
def XerBecomes (ca ov : Option Bool) (s t : State) : Prop :=
  xerCa t.xer = ca.getD (xerCa s.xer) ∧ xerOv t.xer = ov.getD (xerOv s.xer) ∧
  xerSo t.xer = (xerSo s.xer || ov.getD false) ∧ t.xer &&& 0x1FFFFFFF = s.xer &&& 0x1FFFFFFF

/-- A result in register rt: its flags, pc + 4, and nothing else. -/
def Results (rt : Reg) (r : Word) (ca ov : Option Bool) (rc : Bool) (s t : State) : Prop :=
  t.reg rt = r ∧ RegsKept [rt] s t ∧ XerBecomes ca ov s t ∧ (if rc then Cr0Records r s t else t.cr = s.cr) ∧
  t.pc = s.pc + 4 ∧ OnlyUserResults s t

/-- Whether a whole number lies outside the range of a signed word. -/
def outsideSigned (x : Int) : Bool := decide (x < -2 ^ 31) || decide (2 ^ 31 ≤ x)

/-- The signed word nearest to a whole number. -/
def nearestSigned (x : Int) : Int := max (-2 ^ 31) (min (2 ^ 31 - 1) x)

/-- OV as an OE form reports it. -/
def ifOe (oe o : Bool) : Option Bool := if oe then some o else none

/-! ## Interrupts -/

/-- `t` is the state after interrupt k with saved address `saved`, taken in a state that agrees with s but for ESR, DEAR
and DBSR: the class's save pair, the MSR bits it keeps, the vector (60_exceptions.md R610 to R614). -/
def Takes (k : Interrupt) (saved : Word) (s t : State) : Prop :=
  t.entry = some k ∧ t.pc = (s.evpr &&& 0xFFFF0000) ||| k.offset ∧
  t.msr = s.msr &&& (if k = .machineCheckInstruction ∨ k = .machineCheckData then 0
    else if k.critical then 0x00001000 else 0x00021200) ∧
  (if k.critical then t.srr2 = wordAligned saved ∧ t.srr3 = s.msr ∧ t.srr0 = s.srr0 ∧ t.srr1 = s.srr1
    else t.srr0 = wordAligned saved ∧ t.srr1 = s.msr ∧ t.srr2 = s.srr2 ∧ t.srr3 = s.srr3) ∧
  t = { s with pc := t.pc, msr := t.msr, srr0 := t.srr0, srr1 := t.srr1, srr2 := t.srr2, srr3 := t.srr3, esr := t.esr,
               dear := t.dear, dbsr := t.dbsr, entry := t.entry }

/-- ESR after a synchronous interrupt with these bits: MCI as before, the others 0 (10_state.md R53). -/
def Syndrome (bits : Word) (s t : State) : Prop :=
  t.esr = (s.esr &&& 0x80000000) ||| bits

/-- The interrupt leaves ESR, DEAR and DBSR alone. -/
def SyndromeKept (s t : State) : Prop := t.esr = s.esr ∧ t.dear = s.dear ∧ t.dbsr = s.dbsr

/-! ## Debug compares in exact arithmetic (60_exceptions.md R671, 10_state.md R90 to R94) -/

/-- Exactly the bits with the property P are 1 in the word. -/
def BitsAre (P : Nat → Prop) (w : Word) : Prop := ∀ j, j < 32 → (bitOf w j = true ↔ P j)

/-- Address a lies in the range of a compare pair: from lo up to hi, hi itself not included; or, exclusive, outside that. -/
def InCompareRange (exclusive : Bool) (lo hi a : Word) : Prop :=
  if exclusive then a.toNat < lo.toNat ∨ hi.toNat ≤ a.toNat else lo.toNat ≤ a.toNat ∧ a.toNat < hi.toNat

/-- DBSR bit j, of IA1 to IA4, is that of an enabled instruction address compare that hits pc: its own address, or the range of its
pair if DBCR0[IA12] or DBCR0[IA34] selects that. -/
def IacHits (s : State) (j : Nat) : Prop :=
  let hits (enable range : Nat) (lo hi own : Word) : Prop :=
    bitOf s.dbcr0 enable = true ∧
      if bitOf s.dbcr0 range = true then InCompareRange (bitOf s.dbcr0 (range + 1)) lo hi s.pc else own = s.pc
  (j = 5 ∧ hits 8 10 s.iac1 s.iac2 s.iac1) ∨ (j = 6 ∧ hits 9 10 s.iac1 s.iac2 s.iac2) ∨
  (j = 12 ∧ hits 12 14 s.iac3 s.iac4 s.iac3) ∨ (j = 13 ∧ hits 13 14 s.iac3 s.iac4 s.iac4)

/-- Data address compare 1, or the second, is enabled for loads or stores and address a hits it: DAC1 or DAC2 but for the low-order
bits its size field ignores (none, 1, 2 or 5), or the range of the two if DBCR1[DA12] selects that. -/
def DacMatches (s : State) (second store : Bool) (a : Word) : Prop :=
  bitOf s.dbcr1 ((if store then 2 else 0) + (if second then 1 else 0)) = true ∧
    if bitOf s.dbcr1 8 = true then InCompareRange (bitOf s.dbcr1 9) s.dac1 s.dac2 a
    else
      let size := s.dbcr1.toNat / 2 ^ (if second then 24 else 26) % 4
      let block := 2 ^ (if size = 3 then 5 else size)
      a.toNat / block = (if second then s.dac2 else s.dac1).toNat / block

/-- The DBSR bit of a data compare: DR1, DW1, DR2 or DW2. -/
def dacStatusBit (second store : Bool) : Nat := 7 + (if second then 2 else 0) + (if store then 1 else 0)

/-- DBSR bit j is that of a data address compare that an address of the instruction's reference hits: that of its first byte, or of
an aligned word it goes on to touch (log entry 36). -/
def DacHits (i : Instr) (s : State) (j : Nat) : Prop :=
  ∃ (store second : Bool) (ea : Word) (n k : Nat), dataReference i s = some (store, ea, n) ∧ k < n ∧
    (k = 0 ∨ (ea + BitVec.ofNat 32 k).toNat % 4 = 0) ∧ DacMatches s second store (ea + BitVec.ofNat 32 k) ∧
    j = dacStatusBit second store

/-! ## Timer events in exact arithmetic (60_exceptions.md R662, R663) -/

/-- The next tick raises the TBL bit of weight 2^k: the period is 2^(k + 1) ticks. -/
def NextTickRaises (k : Nat) (s : State) : Prop := (s.tbl.toNat + 1) % 2 ^ (k + 1) = 2 ^ k

/-- The next tick is a FIT event: TCR[FP] selects the period 2^9, 2^13, 2^17 or 2^21. -/
def FitEvent (s : State) : Prop := NextTickRaises (8 + 4 * (s.tcr.extractLsb' 24 2).toNat) s

/-- The next tick is a watchdog time-out: TCR[WP] selects the period 2^17, 2^21, 2^25 or 2^29. -/
def WatchdogTimeout (s : State) : Prop := NextTickRaises (16 + 4 * (s.tcr.extractLsb' 30 2).toNat) s

/-! ## After a reset (70_reset_and_hazards.md R702, 10_state.md R119) -/

/-- What a reset with this type code leaves: the values of R119, storage and what belongs to the chip as before. TSR[ENW, WIS]
are 0 after a watchdog reset by R119, and after every reset by R61 (log entry 17). -/
def AfterReset (code wrs : BitVec 2) (s t : State) : Prop :=
  t.pc = s.resetVector ∧ t.msr = 0 ∧ t.esr = 0 ∧ t.ccr0 = 0x00700000 ∧ t.dccr = 0 ∧ t.iccr = 0 ∧ t.dcwr = 0 ∧ t.su0r = 0 ∧
  t.sler = 0 ∧ t.sgr = 0xFFFFFFFF ∧ t.tcr = 0 ∧ t.dbcr0 = 0 ∧ t.dbcr1 = 0 ∧ t.dbsr.extractLsb' 8 2 = code ∧
  t.tsr.extractLsb' 28 2 = wrs ∧ bitOf t.tsr 0 = false ∧ bitOf t.tsr 1 = false ∧ t.pvr = s.pvr ∧
  t.reserve = false ∧ t.mem = s.mem ∧ t.dcrSpace = s.dcrSpace ∧ t.memoryMap = s.memoryMap ∧ t.resetVector = s.resetVector ∧ t.hostLog = s.hostLog ∧
  t.fpuPresent = s.fpuPresent ∧ t.apuPresent = s.apuPresent ∧ t.inputs = s.inputs ∧ t.entry = none

/-! ## Where a step executes -/

/-- u is the state in which `step s` fetches an instruction: the host's input has been read and its ticks have passed, no
reset, no interrupt and no wait state intervenes, and internal debug mode is off. -/
def ReachesFetch (s u : State) : Prop :=
  (s.inputs.headD HostInput.idle).reset = none ∧
  u = recordUnconditional (s.inputs.headD HostInput.idle).unconditionalDebug
    (ticks (s.inputs.headD HostInput.idle).ticks { s with inputs := s.inputs.tail, entry := none }) ∧
  u.debugRefusal = none ∧ pendingInterrupts (s.inputs.headD HostInput.idle) u = [] ∧ u.weBit = false ∧ u.idmBit = false

end Sys2Proof.Machine
end

