-- ==== Sys2Proof/WellFormed.lean ====
section
/-! DEFINITION. Well-formed instructions: those that are no invalid form (30_encoding.md R246). An invalid form still has
a meaning in `Machine/`; this file says which forms software must not use, check by check. -/
namespace Sys2Proof

/-- The invalid forms the spec names, one constructor per check. -/
inductive FormError where
  /-- Bit 31 is 1 in a form without a record or link bit (R246 (b), U1). -/
  | bit31Set
  /-- An update form with RA = 0 (40_storage_reference.md R261). -/
  | updateBaseZero
  /-- A load with update and RA = RT (40_storage_reference.md R261). -/
  | updateBaseIsTarget
  /-- lmw, lswi or lswx with RA (or RB) among the registers to be loaded (41_storage_multiple_string_sync.md R311, R313, R314). -/
  | baseInLoadedRange
  /-- bcctr with BO[2] = 0 (45_branch_cr_logical.md R456). -/
  | decrementCounterTarget
  /-- A nonzero z bit of BO (45_branch_cr_logical.md R451). -/
  | optionBitsNotZero
  /-- tlbre or tlbwe with WS other than 0 and 1 (48_interrupt_control_tlb.md R541). -/
  | wordSelect
  /-- mfspr, mtspr or mftb naming no register (49_processor_management.md R570 to R573). -/
  | registerNumber
deriving DecidableEq, Repr

/-- The SPR numbers mfspr may name (10_state.md R33; TBL and TBU are write-only there). -/
def readableSprs : List Nat :=
  [0x001, 0x008, 0x009, 0x01A, 0x01B, 0x100, 0x104, 0x105, 0x106, 0x107, 0x110, 0x111, 0x112, 0x113, 0x114, 0x115, 0x116,
   0x117, 0x11F, 0x3B0, 0x3B1, 0x3B3, 0x3B4, 0x3B5, 0x3B6, 0x3B7, 0x3B9, 0x3BA, 0x3BB, 0x3BC, 0x3BD, 0x3D3, 0x3D4, 0x3D5,
   0x3D6, 0x3D8, 0x3DA, 0x3DB, 0x3DE, 0x3DF, 0x3F0, 0x3F2, 0x3F4, 0x3F5, 0x3F6, 0x3F7, 0x3FA, 0x3FB]

/-- The SPR numbers mtspr may name: the readable ones but the aliases 0x104 to 0x107, with TBL and TBU (10_state.md R33, R39). -/
def writableSprs : List Nat :=
  0x11C :: 0x11D :: readableSprs.filter fun n => !(0x104 ≤ n && n ≤ 0x107)

/-- One check: the error if the condition holds. -/
def check (bad : Bool) (e : FormError) : List FormError := if bad then [e] else []

/-- The check of bit 31. -/
def checkBit31 (nr : Bool) : List FormError := check nr .bit31Set

/-- The checks of a load with update. -/
def checkLoadUpdate (rt ra : Reg) : List FormError := check (ra == 0) .updateBaseZero ++ check (ra == rt) .updateBaseIsTarget

/-- The checks of a store with update. -/
def checkStoreUpdate (ra : Reg) : List FormError := check (ra == 0) .updateBaseZero

/-- The z bits of BO, row by row: 1z00y, 1z01y, 1z1zz, 001zy, 011zy (45_branch_cr_logical.md R451). -/
def branchOptionZ (bo : BitVec 5) : Bool :=
  if bo.getMsbD 0 then bo.getMsbD 1 || (bo.getMsbD 2 && (bo.getMsbD 3 || bo.getMsbD 4))
  else bo.getMsbD 2 && bo.getMsbD 3

/-- The check of the z bits of BO. -/
def checkBranchOption (bo : BitVec 5) : List FormError := check (branchOptionZ bo) .optionBitsNotZero

/-- The registers lswi loads, by number: CEIL(count / 4) from RT, wrapping from 31 to 0 (R313). -/
def stringRange (rt : Reg) (nb : BitVec 5) : List Nat :=
  (List.range (((if nb = 0 then 32 else nb.toNat) + 3) / 4)).map fun k => (rt.toNat + k) % 32

/-- The invalid forms an instruction is an instance of. -/
def Instr.formErrors : Instr → List FormError
  | .lbz _ _ _ => []
  | .lbzu rt ra _ => checkLoadUpdate rt ra
  | .lbzux rt ra _ nr => checkBit31 nr ++ checkLoadUpdate rt ra
  | .lbzx _ _ _ nr => checkBit31 nr
  | .lha _ _ _ => []
  | .lhau rt ra _ => checkLoadUpdate rt ra
  | .lhaux rt ra _ nr => checkBit31 nr ++ checkLoadUpdate rt ra
  | .lhax _ _ _ nr => checkBit31 nr
  | .lhz _ _ _ => []
  | .lhzu rt ra _ => checkLoadUpdate rt ra
  | .lhzux rt ra _ nr => checkBit31 nr ++ checkLoadUpdate rt ra
  | .lhzx _ _ _ nr => checkBit31 nr
  | .lwz _ _ _ => []
  | .lwzu rt ra _ => checkLoadUpdate rt ra
  | .lwzux rt ra _ nr => checkBit31 nr ++ checkLoadUpdate rt ra
  | .lwzx _ _ _ nr => checkBit31 nr
  | .stb _ _ _ => []
  | .stbu _ ra _ => checkStoreUpdate ra
  | .stbux _ ra _ nr => checkBit31 nr ++ checkStoreUpdate ra
  | .stbx _ _ _ nr => checkBit31 nr
  | .sth _ _ _ => []
  | .sthu _ ra _ => checkStoreUpdate ra
  | .sthux _ ra _ nr => checkBit31 nr ++ checkStoreUpdate ra
  | .sthx _ _ _ nr => checkBit31 nr
  | .stw _ _ _ => []
  | .stwu _ ra _ => checkStoreUpdate ra
  | .stwux _ ra _ nr => checkBit31 nr ++ checkStoreUpdate ra
  | .stwx _ _ _ nr => checkBit31 nr
  | .lhbrx _ _ _ nr => checkBit31 nr
  | .lwbrx _ _ _ nr => checkBit31 nr
  | .sthbrx _ _ _ nr => checkBit31 nr
  | .stwbrx _ _ _ nr => checkBit31 nr
  | .lmw rt ra _ => check (rt ≤ ra) .baseInLoadedRange
  | .stmw _ _ _ => []
  | .lswi rt ra nb nr => checkBit31 nr ++ check (decide (ra.toNat ∈ stringRange rt nb)) .baseInLoadedRange
  | .lswx rt ra rb nr => checkBit31 nr ++ check (ra == rt || rb == rt) .baseInLoadedRange
  | .stswi _ _ _ nr => checkBit31 nr
  | .stswx _ _ _ nr => checkBit31 nr
  | .lwarx _ _ _ nr => checkBit31 nr
  | .stwcx _ _ _ => []
  | .add _ _ _ _ _ => []
  | .addc _ _ _ _ _ => []
  | .adde _ _ _ _ _ => []
  | .addi _ _ _ => []
  | .addic _ _ _ => []
  | .addicRc _ _ _ => []
  | .addis _ _ _ => []
  | .addme _ _ _ _ => []
  | .addze _ _ _ _ => []
  | .divw _ _ _ _ _ => []
  | .divwu _ _ _ _ _ => []
  | .mulhw _ _ _ _ => []
  | .mulhwu _ _ _ _ => []
  | .mulli _ _ _ => []
  | .mullw _ _ _ _ _ => []
  | .neg _ _ _ _ => []
  | .subf _ _ _ _ _ => []
  | .subfc _ _ _ _ _ => []
  | .subfe _ _ _ _ _ => []
  | .subfic _ _ _ => []
  | .subfme _ _ _ _ => []
  | .subfze _ _ _ _ => []
  | .macchw _ _ _ _ _ => []
  | .macchws _ _ _ _ _ => []
  | .macchwsu _ _ _ _ _ => []
  | .macchwu _ _ _ _ _ => []
  | .machhw _ _ _ _ _ => []
  | .machhws _ _ _ _ _ => []
  | .machhwsu _ _ _ _ _ => []
  | .machhwu _ _ _ _ _ => []
  | .maclhw _ _ _ _ _ => []
  | .maclhws _ _ _ _ _ => []
  | .maclhwsu _ _ _ _ _ => []
  | .maclhwu _ _ _ _ _ => []
  | .nmacchw _ _ _ _ _ => []
  | .nmacchws _ _ _ _ _ => []
  | .nmachhw _ _ _ _ _ => []
  | .nmachhws _ _ _ _ _ => []
  | .nmaclhw _ _ _ _ _ => []
  | .nmaclhws _ _ _ _ _ => []
  | .mulchw _ _ _ _ => []
  | .mulchwu _ _ _ _ => []
  | .mulhhw _ _ _ _ => []
  | .mulhhwu _ _ _ _ => []
  | .mullhw _ _ _ _ => []
  | .mullhwu _ _ _ _ => []
  | .and _ _ _ _ => []
  | .andc _ _ _ _ => []
  | .andi _ _ _ => []
  | .andis _ _ _ => []
  | .cntlzw _ _ _ => []
  | .eqv _ _ _ _ => []
  | .extsb _ _ _ => []
  | .extsh _ _ _ => []
  | .nand _ _ _ _ => []
  | .nor _ _ _ _ => []
  | .or _ _ _ _ => []
  | .orc _ _ _ _ => []
  | .ori _ _ _ => []
  | .oris _ _ _ => []
  | .xor _ _ _ _ => []
  | .xori _ _ _ => []
  | .xoris _ _ _ => []
  | .cmp _ _ _ nr => checkBit31 nr
  | .cmpi _ _ _ => []
  | .cmpl _ _ _ nr => checkBit31 nr
  | .cmpli _ _ _ => []
  | .b _ _ _ => []
  | .bc bo _ _ _ _ => checkBranchOption bo
  | .bcctr bo _ _ => checkBranchOption bo ++ check (!bo.getMsbD 2) .decrementCounterTarget
  | .bclr bo _ _ => checkBranchOption bo
  | .crand _ _ _ nr => checkBit31 nr
  | .crandc _ _ _ nr => checkBit31 nr
  | .creqv _ _ _ nr => checkBit31 nr
  | .crnand _ _ _ nr => checkBit31 nr
  | .crnor _ _ _ nr => checkBit31 nr
  | .cror _ _ _ nr => checkBit31 nr
  | .crorc _ _ _ nr => checkBit31 nr
  | .crxor _ _ _ nr => checkBit31 nr
  | .mcrf _ _ nr => checkBit31 nr
  | .rlwimi _ _ _ _ _ _ => []
  | .rlwinm _ _ _ _ _ _ => []
  | .rlwnm _ _ _ _ _ _ => []
  | .slw _ _ _ _ => []
  | .sraw _ _ _ _ => []
  | .srawi _ _ _ _ => []
  | .srw _ _ _ _ => []
  | .dcba _ _ nr => checkBit31 nr
  | .dcbf _ _ nr => checkBit31 nr
  | .dcbi _ _ nr => checkBit31 nr
  | .dcbst _ _ nr => checkBit31 nr
  | .dcbt _ _ nr => checkBit31 nr
  | .dcbtst _ _ nr => checkBit31 nr
  | .dcbz _ _ nr => checkBit31 nr
  | .dccci _ _ nr => checkBit31 nr
  | .dcread _ _ _ nr => checkBit31 nr
  | .icbi _ _ nr => checkBit31 nr
  | .icbt _ _ nr => checkBit31 nr
  | .iccci _ _ nr => checkBit31 nr
  | .icread _ _ nr => checkBit31 nr
  | .mfmsr _ nr => checkBit31 nr
  | .mtmsr _ nr => checkBit31 nr
  | .rfci nr => checkBit31 nr
  | .rfi nr => checkBit31 nr
  | .wrtee _ nr => checkBit31 nr
  | .wrteei _ nr => checkBit31 nr
  | .tlbia nr => checkBit31 nr
  | .tlbre _ _ ws nr => checkBit31 nr ++ check (1#5 < ws) .wordSelect
  | .tlbsync nr => checkBit31 nr
  | .tlbsx _ _ _ _ => []
  | .tlbwe _ _ ws nr => checkBit31 nr ++ check (1#5 < ws) .wordSelect
  | .eieio nr => checkBit31 nr
  | .isync nr => checkBit31 nr
  | .mcrxr _ nr => checkBit31 nr
  | .mfcr _ nr => checkBit31 nr
  | .mfdcr _ _ nr => checkBit31 nr
  | .mtcrf _ _ nr => checkBit31 nr
  | .mtdcr _ _ nr => checkBit31 nr
  | .sync nr => checkBit31 nr
  | .mfspr _ sprn nr => checkBit31 nr ++ check (!readableSprs.contains sprn.toNat) .registerNumber
  | .mftb _ tbrn nr => checkBit31 nr ++ check (!(tbrn == 0x10C#10 || tbrn == 0x10D#10)) .registerNumber
  | .mtspr _ sprn nr => checkBit31 nr ++ check (!writableSprs.contains sprn.toNat) .registerNumber
  | .sc => []
  | .tw _ _ _ nr => checkBit31 nr
  | .twi _ _ _ => []

/-- A well-formed instruction: no invalid form. -/
def Instr.wellFormed (i : Instr) : Bool := i.formErrors == []

end Sys2Proof
end

