-- ==== Sys2Proof/Certificates/Slice0/Obligations.lean ====
section
/-! DEFINITION. The statements for the provers, from the numbered rules of spec/. Each says what it formalises; the words it
uses stand in Sys2Proof/Safety.lean. A statement with the premise `Memory.wf s.mem = true` rests on the canonical form of
storage, which `StepKeepsTheInvariant` carries from step to step. -/
open Sys2Proof Sys2Proof.Machine

/-! ## Encoding -/

/-- Decoding the bytes of any instruction, invalid forms included, gives it back with every operand, and leaves the bytes
that follow (30_encoding.md R200 to R211). -/
def Obligations.DecodeAfterEncode : Prop :=
  ∀ (i : Instr) (rest : List Byte), decode (encode i ++ rest) = .ok (i, rest)

/-- One or more words of each family, as spec/ writes them in its examples, decode to the instructions they stand for: storage
reference (R263, R285), multiple and string (R311, R313, R318), arithmetic (R331, R334), multiply-accumulate (R372), logical and
compare (R413, R428), branch and CR logical (R454, R455, R458, R466), rotate and shift (R482, R484), cache (R507), interrupt and
TLB (R541), processor management (R565, R574). -/
def Obligations.WordsDecodeAsEncoded : Prop :=
  decodeTableWord 32 0x88610010 = some (.lbz 3 1 16) ∧
  decodeTableWord 32 0x7CA1136E = some (.sthux 5 1 2 false) ∧
  decodeTableWord 32 0xBBA10010 = some (.lmw 29 1 16) ∧
  decodeTableWord 32 0x7CA134AA = some (.lswi 5 1 6 false) ∧
  decodeTableWord 32 0x7C60212D = some (.stwcx 3 0 4) ∧
  decodeTableWord 32 0x7C642E15 = some (.add 3 4 5 true true) ∧
  decodeTableWord 32 0x3864FFFF = some (.addi 3 4 0xFFFF) ∧
  decodeTableWord 32 0x10642D59 = some (.macchw 3 4 5 true true) ∧
  decodeTableWord 32 0x7083FF0F = some (.andi 4 3 0xFF0F) ∧
  decodeTableWord 32 0x7C842800 = some (.cmp 1 4 5 false) ∧
  decodeTableWord 32 0x48000040 = some (.b 0x10 false false) ∧
  decodeTableWord 32 0x41820020 = some (.bc 12 2 8 false false) ∧
  decodeTableWord 32 0x4C053202 = some (.crand 0 5 6 false) ∧
  decodeTableWord 32 0x4C1C0000 = some (.mcrf 0 7 false) ∧
  decodeTableWord 32 0x5483083F = some (.rlwinm 4 3 1 0 31 true) ∧
  decodeTableWord 32 0x7C832831 = some (.slw 4 3 5 true) ∧
  decodeTableWord 32 0x7C0117EC = some (.dcbz 1 2 false) ∧
  decodeTableWord 32 0x7C640764 = some (.tlbre 3 4 0 false) ∧
  decodeTableWord 32 0x7C634A86 = some (.mfdcr 3 0x123 false) ∧
  decodeTableWord 32 0x44000002 = some .sc

/-- A word that names no instruction of the core raises Program with ESR[PIL], unless it is the encoding of an attached unit; that
raises the unit's Unavailable interrupt while the MSR turns the unit off (60_exceptions.md R640 to R642, 30_encoding.md R245, D7,
D19). The numbers of the illegal primary opcodes are those of R211. The model's choices: without a unit a floating-point word raises
Program whatever MSR[FP] is, by R641, D7, D19 and U7, where the floating-point row of R245's table has FPU Unavailable for MSR[FP]
= 0 (log entry 14); which words a unit claims is R245's list (log entry 14), and the numbers of the floating-point loads and stores
under OPCD 31, which the words of `DecodeError.floatingPoint` include, are PRESUMED (log entry 8). -/
def Obligations.EncodingsOutsideTheCoreTrap : Prop :=
  (∀ w : Word, (opcd w).toNat ∈ [0, 1, 2, 5, 6, 9, 22, 30, 56, 57, 58, 60, 61, 62] →
    decodeWord w = .error (.illegalPrimary (opcd w).toNat)) ∧
  (∀ w : Word, (opcd w).toNat ∈ [48, 49, 50, 51, 52, 53, 54, 55, 59, 63] →
    decodeWord w = .error (.floatingPoint (opcd w).toNat (xo10 w).toNat)) ∧
  ∀ (s u : State) (bytes : List Byte) (e : DecodeError), ReachesFetch s u → u.fetch = .ok bytes → decode bytes = .error e →
    let v := u.afterFetch
    ((∀ o x, e = .floatingPoint o x → u.fpuPresent = false) → (∀ x, e = .auxiliary x → u.apuPresent = false) →
      ∃ t, step s = .next t ∧ Takes .program u.pc v t ∧ Syndrome 0x08000000 u t ∧ t.dear = u.dear) ∧
    (∀ o x, e = .floatingPoint o x → u.fpuPresent = true → u.fpBit = false →
      ∃ t, step s = .next t ∧ Takes .fpuUnavailable u.pc v t ∧ SyndromeKept u t) ∧
    (∀ x, e = .auxiliary x → u.apuPresent = true → u.apBit = false →
      ∃ t, step s = .next t ∧ Takes .apuUnavailable u.pc v t ∧ SyndromeKept u t)

/-! ## The step -/

/-- The invariant of the machine holds right after reset. -/
def Obligations.ResetMeetsTheInvariant : Prop := State.reset.Inv

/-- Every step keeps the invariant: storage stays canonical, pc word aligned, unimplemented register bits 0 (10_state.md R32,
R34, D21). -/
def Obligations.StepKeepsTheInvariant : Prop := ∀ s t : State, s.Inv → step s = .next t → t.Inv

/-- When the bytes fetched decode to i, the step is exec of i in the state after the fetch, which is the state before it but that
a device at the fetch address has seen a word load; a next state passes the debug bookkeeping, which changes nothing while
internal debug mode is off in it (60_exceptions.md R610 (c), (d), 20_memory.md R180). The model's choices: for a word over ranges of
different kinds the device at the first byte alone counts (log entry 35); the bookkeeping of DBSR goes beyond decision D18, which
recognises no debug event (log entry 9). -/
def Obligations.StepRunsTheDecodedInstruction : Prop :=
  ∀ (s u : State) (bytes rest : List Byte) (i : Instr), ReachesFetch s u → u.fetch = .ok bytes →
    decode bytes = .ok (i, rest) →
    (∀ ra little, u.fetchPlace = .real ra little → u.afterFetch =
      { u with hostLog := if u.isDevice ra = true then .load ra 4 :: u.hostLog else u.hostLog }) ∧
    (∀ t, exec i u.afterFetch = .next t → ∃ t', step s = .next t' ∧ (t.idmBit = false → t' = t) ∧
      t' = { t with dbsr := t'.dbsr }) ∧
    (∀ f, exec i u.afterFetch = .fault f → step s = .fault f) ∧
    (∀ r, exec i u.afterFetch = .refused r → step s = .refused r)

/-- The instruction word is formed from the four bytes at the fetch address, the first most significant, or the other way round
where the region is little endian (20_memory.md R126). Which address and which order these are is in `ZoneProtection`; a fetch of
which a device has a byte is in `DeviceAccesses`, one that meets a bus error in `FailingFetchesTrap`. -/
def Obligations.FetchReadsTheWordAtPc : Prop :=
  ∀ (s : State) (ra : Word) (little : Bool), s.fetchPlace = .real ra little →
    (∀ k, k < 4 → s.isHole (ra + BitVec.ofNat 32 k) = false ∧ s.isDevice (ra + BitVec.ofNat 32 k) = false) →
    let byte (k : Nat) : Byte := Memory.read s.mem (ra + BitVec.ofNat 32 k).toNat
    s.fetch = .ok (if little = true then [byte 3, byte 2, byte 1, byte 0] else [byte 0, byte 1, byte 2, byte 3])

/-- A fetch that fails: Instruction TLB Miss; where two valid entries match, which R144 leaves undefined, the refusal of U8 (log
entry 22); Instruction Storage; an instruction machine check, or (with MSR[ME] = 0) the refusal of U16, where nothing answers at a
byte of the word or the device at its first byte does not answer a word load (60_exceptions.md R631, R635, R649, 20_memory.md R145,
R180, D9). For a word over ranges of different kinds that criterion, any byte in a hole or the width of the device at the first byte
alone, is the model's choice (log entry 35). EX, the zone's override of it and the guarded check are those of 20_memory.md R146 and
R148. -/
def Obligations.FailingFetchesTrap : Prop :=
  ∀ s u : State, ReachesFetch s u →
    (u.irBit = true → u.lookup u.pc = .miss →
      ∃ t, step s = .next t ∧ Takes .instructionTlbMiss u.pc u t ∧ SyndromeKept u t) ∧
    (u.irBit = true → u.lookup u.pc = .duplicate → step s = .refused .duplicateTlbEntries) ∧
    (∀ j e, u.irBit = true → u.lookup u.pc = .hit j e → u.zoneDenies e = true →
      ∃ t, step s = .next t ∧ Takes .instructionStorage u.pc u t ∧ Syndrome 0x00400000 u t ∧ t.dear = u.dear) ∧
    (∀ j e, u.irBit = true → u.lookup u.pc = .hit j e → u.zoneDenies e = false →
      ((e.ex = false ∧ u.zoneOverrides e = false) ∨ e.g = true) →
      ∃ t, step s = .next t ∧ Takes .instructionStorage u.pc u t ∧ Syndrome 0 u t ∧ t.dear = u.dear) ∧
    (∀ ra little, u.fetchPlace = .real ra little → ((∃ k, k < 4 ∧ u.isHole (ra + BitVec.ofNat 32 k) = true) ∨
        ∃ loads stores, u.regionKind ra = some (.device loads stores) ∧ 4 ∉ loads) →
      (u.meBit = true → ∃ t, step s = .next t ∧ Takes .machineCheckInstruction u.pc u t ∧ t.esr = u.esr ||| 0x80000000 ∧
        t.dear = u.dear ∧ t.dbsr = u.dbsr) ∧
      (u.meBit = false → step s = .refused .fetchBusError))

/-- Asynchronous interrupts at a boundary, one by one in the order of the priority list, each with its enables; the saved
address is that of the next instruction, ESR and DEAR stay (60_exceptions.md R610 (b), R618, R630, R636, R661 to R663, D6). -/
def Obligations.AsynchronousInterruptsInOrder : Prop :=
  ∀ s u : State, (s.inputs.headD HostInput.idle).reset = none →
    u = recordUnconditional (s.inputs.headD HostInput.idle).unconditionalDebug
      (ticks (s.inputs.headD HostInput.idle).ticks { s with inputs := s.inputs.tail, entry := none }) →
    u.debugRefusal = none → u.idmBit = false →
    ∀ k : Interrupt,
      (if u.ceBit = true ∧ (s.inputs.headD HostInput.idle).critical = true then some Interrupt.criticalInput
      else if u.ceBit = true ∧ bitOf u.tsr 1 = true ∧ bitOf u.tcr 4 = true then some Interrupt.watchdog
      else if u.eeBit = true ∧ (s.inputs.headD HostInput.idle).external = true then some Interrupt.external
      else if u.eeBit = true ∧ bitOf u.tsr 5 = true ∧ bitOf u.tcr 8 = true then some Interrupt.fixedTimer
      else if u.eeBit = true ∧ bitOf u.tsr 4 = true ∧ bitOf u.tcr 5 = true then some Interrupt.intervalTimer
      else none) = some k →
      ∃ t, step s = .next t ∧ Takes k u.pc u t ∧ SyndromeKept u t

/-- The wait state with no interrupt to take: with MSR[EE] = MSR[CE] = 0 the model reports a halt, else the step only lets
the input and the timers pass (60_exceptions.md R616, D16). -/
def Obligations.WaitStateWaits : Prop :=
  ∀ s u : State, (s.inputs.headD HostInput.idle).reset = none →
    u = recordUnconditional (s.inputs.headD HostInput.idle).unconditionalDebug
      (ticks (s.inputs.headD HostInput.idle).ticks { s with inputs := s.inputs.tail, entry := none }) →
    u.debugRefusal = none → u.idmBit = false → pendingInterrupts (s.inputs.headD HostInput.idle) u = [] → u.weBit = true →
    (u.eeBit = false → u.ceBit = false → step s = .fault .halted) ∧
    (u.eeBit = true ∨ u.ceBit = true → step s = .next u)

/-! ## Storage reference -/

/-- The loads without update: RT is the operand, zero-extended, sign-extended or byte-reversed, read in the region's byte
order, when every byte of it is accessible. The effective address is the base, 0 if the RA field is 0, plus the signed
displacement or the index, modulo 2^32 (40_storage_reference.md R260, R263 to R292, 20_memory.md R130). -/
def Obligations.LoadsReadTheirOperand : Prop :=
  ∀ (s : State) (rt ra rb : Reg) (d : BitVec 16) (nr : Bool),
    s.eaD ra d = BitVec.ofInt 32 ((if ra = 0 then 0 else (s.reg ra).toInt) + d.toInt) ∧
    s.eaX ra rb = BitVec.ofNat 32 ((if ra = 0 then 0 else (s.reg ra).toNat) + (s.reg rb).toNat) ∧
    (s.allAccessible false (byteAddresses (s.eaD ra d) 1) = true →
      RunsTo (.lbz rt ra d) s (Loads rt (BitVec.ofNat 32 (s.loaded (s.eaD ra d) 1)) false s)) ∧
    (s.allAccessible false (byteAddresses (s.eaX ra rb) 1) = true →
      RunsTo (.lbzx rt ra rb nr) s (Loads rt (BitVec.ofNat 32 (s.loaded (s.eaX ra rb) 1)) nr s)) ∧
    (s.allAccessible false (byteAddresses (s.eaD ra d) 2) = true →
      RunsTo (.lhz rt ra d) s (Loads rt (BitVec.ofNat 32 (s.loaded (s.eaD ra d) 2)) false s) ∧
      RunsTo (.lha rt ra d) s (Loads rt (BitVec.ofInt 32 (signedHalf (s.loaded (s.eaD ra d) 2))) false s)) ∧
    (s.allAccessible false (byteAddresses (s.eaX ra rb) 2) = true →
      RunsTo (.lhzx rt ra rb nr) s (Loads rt (BitVec.ofNat 32 (s.loaded (s.eaX ra rb) 2)) nr s) ∧
      RunsTo (.lhax rt ra rb nr) s (Loads rt (BitVec.ofInt 32 (signedHalf (s.loaded (s.eaX ra rb) 2))) nr s) ∧
      RunsTo (.lhbrx rt ra rb nr) s (Loads rt (BitVec.ofNat 32 (s.loadedReversed (s.eaX ra rb) 2)) nr s)) ∧
    (s.allAccessible false (byteAddresses (s.eaD ra d) 4) = true →
      RunsTo (.lwz rt ra d) s (Loads rt (BitVec.ofNat 32 (s.loaded (s.eaD ra d) 4)) false s)) ∧
    (s.allAccessible false (byteAddresses (s.eaX ra rb) 4) = true →
      RunsTo (.lwzx rt ra rb nr) s (Loads rt (BitVec.ofNat 32 (s.loaded (s.eaX ra rb) 4)) nr s) ∧
      RunsTo (.lwbrx rt ra rb nr) s (Loads rt (BitVec.ofNat 32 (s.loadedReversed (s.eaX ra rb) 4)) nr s))

/-- The loads with update: RT is the operand and RA the effective address. In the invalid forms RA = 0 and RA = RT the
register that RA names is free (D7, U2), and the rest is as in the others (40_storage_reference.md R261, R264 to R277). -/
def Obligations.UpdateLoadsWriteTheBase : Prop :=
  ∀ (s : State) (rt ra rb : Reg) (d : BitVec 16) (nr : Bool),
    let updates (v ea : Word) (nr : Bool) (t : State) : Prop :=
      (ra ≠ rt → t.reg rt = v) ∧ (ra ≠ 0 → ra ≠ rt → t.reg ra = ea) ∧ OnlyMoves [rt, ra] nr s t ∧ t.mem = s.mem
    (s.allAccessible false (byteAddresses (s.eaD ra d) 1) = true →
      RunsTo (.lbzu rt ra d) s (updates (BitVec.ofNat 32 (s.loaded (s.eaD ra d) 1)) (s.eaD ra d) false)) ∧
    (s.allAccessible false (byteAddresses (s.eaX ra rb) 1) = true →
      RunsTo (.lbzux rt ra rb nr) s (updates (BitVec.ofNat 32 (s.loaded (s.eaX ra rb) 1)) (s.eaX ra rb) nr)) ∧
    (s.allAccessible false (byteAddresses (s.eaD ra d) 2) = true →
      RunsTo (.lhzu rt ra d) s (updates (BitVec.ofNat 32 (s.loaded (s.eaD ra d) 2)) (s.eaD ra d) false) ∧
      RunsTo (.lhau rt ra d) s (updates (BitVec.ofInt 32 (signedHalf (s.loaded (s.eaD ra d) 2))) (s.eaD ra d) false)) ∧
    (s.allAccessible false (byteAddresses (s.eaX ra rb) 2) = true →
      RunsTo (.lhzux rt ra rb nr) s (updates (BitVec.ofNat 32 (s.loaded (s.eaX ra rb) 2)) (s.eaX ra rb) nr) ∧
      RunsTo (.lhaux rt ra rb nr) s (updates (BitVec.ofInt 32 (signedHalf (s.loaded (s.eaX ra rb) 2))) (s.eaX ra rb) nr)) ∧
    (s.allAccessible false (byteAddresses (s.eaD ra d) 4) = true →
      RunsTo (.lwzu rt ra d) s (updates (BitVec.ofNat 32 (s.loaded (s.eaD ra d) 4)) (s.eaD ra d) false)) ∧
    (s.allAccessible false (byteAddresses (s.eaX ra rb) 4) = true →
      RunsTo (.lwzux rt ra rb nr) s (updates (BitVec.ofNat 32 (s.loaded (s.eaX ra rb) 4)) (s.eaX ra rb) nr))

/-- The stores without update: the low-order bytes of RS stand at the effective address in the region's byte order (the
byte-reversed ones in the other), no other byte and no register changes (40_storage_reference.md R279 to R294). -/
def Obligations.StoresWriteTheirOperand : Prop :=
  ∀ (s : State) (rs ra rb : Reg) (d : BitVec 16) (nr : Bool), Memory.wf s.mem = true →
    (s.allAccessible true (byteAddresses (s.eaD ra d) 1) = true →
      RunsTo (.stb rs ra d) s fun t => Stored (s.eaD ra d) 1 (s.reg rs).toNat s t ∧ OnlyStores false s t) ∧
    (s.allAccessible true (byteAddresses (s.eaX ra rb) 1) = true →
      RunsTo (.stbx rs ra rb nr) s fun t => Stored (s.eaX ra rb) 1 (s.reg rs).toNat s t ∧ OnlyStores nr s t) ∧
    (s.allAccessible true (byteAddresses (s.eaD ra d) 2) = true →
      RunsTo (.sth rs ra d) s fun t => Stored (s.eaD ra d) 2 (s.reg rs).toNat s t ∧ OnlyStores false s t) ∧
    (s.allAccessible true (byteAddresses (s.eaX ra rb) 2) = true →
      (RunsTo (.sthx rs ra rb nr) s fun t => Stored (s.eaX ra rb) 2 (s.reg rs).toNat s t ∧ OnlyStores nr s t) ∧
      RunsTo (.sthbrx rs ra rb nr) s fun t => StoredReversed (s.eaX ra rb) 2 (s.reg rs).toNat s t ∧ OnlyStores nr s t) ∧
    (s.allAccessible true (byteAddresses (s.eaD ra d) 4) = true →
      RunsTo (.stw rs ra d) s fun t => Stored (s.eaD ra d) 4 (s.reg rs).toNat s t ∧ OnlyStores false s t) ∧
    (s.allAccessible true (byteAddresses (s.eaX ra rb) 4) = true →
      (RunsTo (.stwx rs ra rb nr) s fun t => Stored (s.eaX ra rb) 4 (s.reg rs).toNat s t ∧ OnlyStores nr s t) ∧
      RunsTo (.stwbrx rs ra rb nr) s fun t => StoredReversed (s.eaX ra rb) 4 (s.reg rs).toNat s t ∧ OnlyStores nr s t)

/-- The stores with update: as the stores, and RA is the effective address; with RA = 0 that register is free (D7, U2;
40_storage_reference.md R261, R280 to R289). RS = RA stores the old value. -/
def Obligations.UpdateStoresWriteTheBase : Prop :=
  ∀ (s : State) (rs ra rb : Reg) (d : BitVec 16) (nr : Bool), Memory.wf s.mem = true →
    let updates (ea : Word) (n : Nat) (nr : Bool) (t : State) : Prop :=
      Stored ea n (s.reg rs).toNat s t ∧ (ra ≠ 0 → t.reg ra = ea) ∧ OnlyMoves [ra] nr s t
    (s.allAccessible true (byteAddresses (s.eaD ra d) 1) = true → RunsTo (.stbu rs ra d) s (updates (s.eaD ra d) 1 false)) ∧
    (s.allAccessible true (byteAddresses (s.eaX ra rb) 1) = true →
      RunsTo (.stbux rs ra rb nr) s (updates (s.eaX ra rb) 1 nr)) ∧
    (s.allAccessible true (byteAddresses (s.eaD ra d) 2) = true → RunsTo (.sthu rs ra d) s (updates (s.eaD ra d) 2 false)) ∧
    (s.allAccessible true (byteAddresses (s.eaX ra rb) 2) = true →
      RunsTo (.sthux rs ra rb nr) s (updates (s.eaX ra rb) 2 nr)) ∧
    (s.allAccessible true (byteAddresses (s.eaD ra d) 4) = true → RunsTo (.stwu rs ra d) s (updates (s.eaD ra d) 4 false)) ∧
    (s.allAccessible true (byteAddresses (s.eaX ra rb) 4) = true →
      RunsTo (.stwux rs ra rb nr) s (updates (s.eaX ra rb) 4 nr))

/-! ## Multiple, string, reservation -/

/-- lmw loads consecutive words into RT to 31; RA in that range is free afterwards, and its word is not read unless it is 31
(30_encoding.md R246 (c), D7, U2). stmw stores RS to 31 at consecutive words (41_storage_multiple_string_sync.md R311, R312). -/
def Obligations.MultiplesMoveConsecutiveWords : Prop :=
  ∀ (s : State) (r ra : Reg) (d : BitVec 16),
    let word (q : Reg) : Word := s.eaD ra d + BitVec.ofNat 32 (4 * (q.toNat - r.toNat))
    ((∀ q : Reg, r ≤ q → (q ≠ ra ∨ q = 31) → s.allAccessible false (byteAddresses (word q) 4) = true) →
      RunsTo (.lmw r ra d) s fun t => LoadsMultiple r ra (s.eaD ra d) (fun k => s.byteAt false (s.eaD ra d + BitVec.ofNat 32 k)) s t ∧
        t.hostLog = s.hostLog) ∧
    (Memory.wf s.mem = true → (∀ q : Reg, r ≤ q → s.allAccessible true (byteAddresses (word q) 4) = true) →
      RunsTo (.stmw r ra d) s fun t =>
        (∀ q : Reg, r ≤ q → Holds (s.littleData true (word q)) (word q) 4 (s.reg q).toNat s t) ∧
        KeptOutside (s.eaD ra d) (4 * (32 - r.toNat)) s t ∧
        t = { s with mem := t.mem, pc := s.pc + 4 })

/-- lswi and lswx fill registers from RT on, wrapping from 31 to 0, four bytes each from the most significant down, the
missing bytes of the last one 0; a base register in the range is free afterwards, and its bytes are not read unless it is the last
one (30_encoding.md R246 (c), D7, U2); a count of 0 changes no register (41_storage_multiple_string_sync.md R313, R314). -/
def Obligations.StringLoadsFillRegisters : Prop :=
  ∀ (s : State) (rt ra rb : Reg) (nb : BitVec 5) (nr : Bool),
    let fills (i : Instr) (bases : List Reg) (ea : Word) (count : Nat) : Prop :=
      let loadsWord (j : Nat) : Prop := (∀ b ∈ bases, stringTarget rt j ≠ b.toNat) ∨ j + 1 = (count + 3) / 4
      (∀ k, k < count → loadsWord (k / 4) → s.accessible false (ea + BitVec.ofNat 32 k) = true) →
      RunsTo i s fun t => FillsRegisters rt bases count nr (fun k => s.byteAt false (ea + BitVec.ofNat 32 k)) s t ∧
        t.hostLog = s.hostLog
    fills (.lswi rt ra nb nr) [ra] (s.ra0 ra) (if nb = 0 then 32 else nb.toNat) ∧
    fills (.lswx rt ra rb nr) [ra, rb] (s.eaX ra rb) (s.xer.toNat % 128)

/-- stswi and stswx store the bytes of consecutive registers from RS on, wrapping from 31 to 0, each register from its most
significant byte down, and change no other byte and no register (41_storage_multiple_string_sync.md R315, R316). -/
def Obligations.StringStoresWriteBytes : Prop :=
  ∀ (s : State) (rs ra rb : Reg) (nb : BitVec 5) (nr : Bool), Memory.wf s.mem = true →
    let stores (i : Instr) (ea : Word) (count : Nat) : Prop :=
      s.allAccessible true (byteAddresses ea count) = true →
      RunsTo i s fun t =>
        (∀ (k : Nat) (q : Reg), k < count → q.toNat = (rs.toNat + k / 4) % 32 →
          (Memory.read t.mem (s.realData true (ea + BitVec.ofNat 32 k)).toNat).toNat
            = byteOfNat 4 (k % 4) (s.reg q).toNat) ∧
        KeptOutside ea count s t ∧ OnlyStores nr s t
    stores (.stswi rs ra nb nr) (s.ra0 ra) (if nb = 0 then 32 else nb.toNat) ∧
    stores (.stswx rs ra rb nr) (s.eaX ra rb) (s.xer.toNat % 128)

/-- lwarx loads a word and sets RESERVE; stwcx. stores only if RESERVE is 1, clears it, and tells in CR0[EQ] whether it
stored (41_storage_multiple_string_sync.md R317, R318, 10_state.md R113). -/
def Obligations.ReservationPair : Prop :=
  ∀ (s : State) (r ra rb : Reg) (nr : Bool), Memory.wf s.mem = true → misaligned (s.eaX ra rb) = false →
    (s.allAccessible false (byteAddresses (s.eaX ra rb) 4) = true →
      RunsTo (.lwarx r ra rb nr) s fun t =>
        t.reserve = true ∧ t.reg r = BitVec.ofNat 32 (s.loaded (s.eaX ra rb) 4) ∧ RegsKept [r] s t ∧ CrKept nr s t ∧
        t = { s with gpr := t.gpr, cr := t.cr, reserve := true, pc := s.pc + 4, freeCount := t.freeCount }) ∧
    (s.allAccessible true (byteAddresses (s.eaX ra rb) 4) = true →
      RunsTo (.stwcx r ra rb) s fun t =>
        t.reserve = false ∧ (s.reserve = true → Stored (s.eaX ra rb) 4 (s.reg r).toNat s t) ∧
        (s.reserve = false → t.mem = s.mem) ∧
        FieldBecomes 0 (fourBits false false s.reserve (xerSo s.xer)) false s t ∧
        t = { s with mem := t.mem, cr := t.cr, reserve := false, pc := s.pc + 4 })

/-! ## What stops a data access -/

/-- The first byte that no TLB entry maps raises Data TLB Miss at its address; ESR[DST] says whether the access is
store-class (60_exceptions.md R648, R619, 20_memory.md R145, R149, R150; dcbz 47_cache_management.md R507). Where two valid entries
match the first byte that does not pass, which R144 leaves undefined, the instruction is refused, as U8 says (log entry 22). That
these are what the TLB search finds with MSR[DR] = 1 is in `ZoneProtection`. For a multiple or string load only the bytes of
registers it loads count. That nothing is done when a later byte misses is the model's choice of the two
outcomes 20_memory.md R134 allows (log entry 26). -/
def Obligations.DataTlbMissAtTheFirstByte : Prop :=
  ∀ (s : State) (r ra rb : Reg) (d : BitVec 16) (nb : BitVec 5) (nr : Bool) (i : Instr),
    i ∈ scalarReferences r ra rb d nr ++ multipleReferences r ra rb d nb nr ++ otherReferences r ra rb nr ∨
      (i ∈ privilegedReferences r ra rb nr ∧ s.prBit = false) →
    ∀ (store : Bool) (ea : Word) (n k : Nat), dataReference i s = some (store, ea, n) → ReachesByte i s store ea n k →
      (s.translateData store (ea + BitVec.ofNat 32 k) = .miss →
        RunsTo i s fun t => Takes .dataTlbMiss s.pc s t ∧ t.dear = ea + BitVec.ofNat 32 k ∧
          Syndrome (if store then 0x00800000 else 0) s t ∧ t.dbsr = s.dbsr) ∧
      (s.translateData store (ea + BitVec.ofNat 32 k) = .duplicate → exec i s = .refused .duplicateTlbEntries)

/-- The first byte whose access is not permitted raises Data Storage at its address, with ESR[DST, DIZ, U0F]
(60_exceptions.md R634, R619, 20_memory.md R147 to R150, R155; dcbz 47_cache_management.md R507). That nothing is done when a
later byte is denied is the model's choice of the two outcomes 20_memory.md R134 allows (log entry 26). For stwcx. with RESERVE = 0
this takes 41_storage_multiple_string_sync.md R318 and U3, which make the checks before RESERVE is tested, against R147's "stwcx. when
it would store" (log entry 30). -/
def Obligations.DataStorageAtTheFirstByte : Prop :=
  ∀ (s : State) (r ra rb : Reg) (d : BitVec 16) (nb : BitVec 5) (nr : Bool) (i : Instr),
    i ∈ scalarReferences r ra rb d nr ++ multipleReferences r ra rb d nb nr ++ otherReferences r ra rb nr ∨
      (i ∈ privilegedReferences r ra rb nr ∧ s.prBit = false) →
    ∀ (store zone u0 : Bool) (ea : Word) (n k : Nat), dataReference i s = some (store, ea, n) →
      ReachesByte i s store ea n k → s.translateData store (ea + BitVec.ofNat 32 k) = .denied zone u0 →
      RunsTo i s fun t => Takes .dataStorage s.pc s t ∧ t.dear = ea + BitVec.ofNat 32 k ∧
        Syndrome ((if store then 0x00800000 else 0) ||| (if zone then 0x00400000 else 0) ||| (if u0 then 0x00008000 else 0)) s t ∧
        t.dbsr = s.dbsr

/-- Misaligned lwarx, stwcx. and dcread, and dcbz on caching-inhibited or write-through storage, raise Alignment with the
effective address as computed, after the translation checks; ESR stays (60_exceptions.md R639, 20_memory.md R132, R150). -/
def Obligations.AlignmentInterrupts : Prop :=
  ∀ (s : State) (r ra rb : Reg) (nr : Bool),
    let alignment (t : State) : Prop :=
      Takes .alignment s.pc s t ∧ t.dear = s.eaX ra rb ∧ t.esr = s.esr ∧ t.dbsr = s.dbsr
    let allPermitted (store : Bool) (n : Nat) : Prop :=
      ∀ k, k < n → s.permitted store (s.eaX ra rb + BitVec.ofNat 32 k) = true
    (misaligned (s.eaX ra rb) = true →
      (allPermitted false 4 → RunsTo (.lwarx r ra rb nr) s alignment) ∧
      (allPermitted true 4 → RunsTo (.stwcx r ra rb) s alignment) ∧
      (s.prBit = false → allPermitted false 1 → RunsTo (.dcread r ra rb nr) s alignment)) ∧
    ∀ real a, s.translateData true (s.eaX ra rb &&& 0xFFFFFFE0) = .real real a → (a.i = true ∨ a.w = true) →
      RunsTo (.dcbz ra rb nr) s alignment

/-- A data access whose bytes all pass translation and of which a single access meets a bus error is a data machine check with
MSR[ME] = 1: nothing is done, and the saved address is that of the next instruction. With MSR[ME] = 0, and where nothing is in
error, the instruction completes as usual but for the bytes in error: a load reads free bytes there, a store drops them. A single
access, of an aligned element or else of one byte, is in error where nothing answers or the device does not answer its width
(60_exceptions.md R632, 20_memory.md R133, R180, D8, D9, U11). The model's choices (log entry 35): an error concerns all bytes of
its single access, read-only memory drops a store as well, and of an aligned store over ranges of different kinds each byte
goes where RAM answers. A stwcx. without a reservation accesses nothing. Devices are in `DeviceAccesses`. -/
def Obligations.DataBusErrors : Prop :=
  ∀ (s : State) (r ra rb : Reg) (d : BitVec 16) (nb : BitVec 5) (nr : Bool),
    -- byte k from ea on, in elements of w bytes: permitted, of no device that answers, and in error only with MSR[ME] = 0
    let plain (store : Bool) (ea : Word) (w k : Nat) : Prop := s.permitted store (ea + BitVec.ofNat 32 k) = true ∧
      (s.isDevice (s.realData store (ea + BitVec.ofNat 32 k)) = true → FailsAt s store ea w k) ∧
      (s.meBit = true → ¬FailsAt s store ea w k)
    let reads (f : Nat → Byte) (i : Instr) (ea : Word) (w n : Nat) : Prop := ∀ k, k < n → ¬SkipsByte i s k →
      ¬FailsAt s false ea w k → f k = s.byteAt false (ea + BitVec.ofNat 32 k)
    let checks (i : Instr) : Prop := RunsTo i s fun t => Takes .machineCheckData (s.pc + 4) s t ∧ SyndromeKept s t
    let checksBy (w : Nat) (i : Instr) : Prop :=
      ∀ (store : Bool) (ea : Word) (n : Nat), dataReference i s = some (store, ea, n) →
        (∀ k, k < n → ¬SkipsByte i s k → s.permitted store (ea + BitVec.ofNat 32 k) = true) →
        (∃ k, k < n ∧ ¬SkipsByte i s k ∧ FailsAt s store ea w k) → checks i
    let x := s.eaX ra rb
    let base : Word := x &&& 0xFFFFFFE0
    let zeroable : Prop := s.permitted true base = true ∧
      ∀ real a, s.translateData true base = .real real a → a.i = false ∧ a.w = false
    -- MSR[ME] = 1 and an error
    (s.meBit = true →
      (∀ l ∈ scalarLoads r ra rb d nr, checksBy l.width l.instr) ∧ (∀ l ∈ scalarStores r ra rb d nr, checksBy l.width l.instr) ∧
      checksBy 4 (.lmw r ra d) ∧ checksBy 4 (.stmw r ra d) ∧ checksBy 1 (.lswi r ra nb nr) ∧ checksBy 1 (.lswx r ra rb nr) ∧
      checksBy 1 (.stswi r ra nb nr) ∧ checksBy 1 (.stswx r ra rb nr) ∧
      (misaligned x = false → checksBy 4 (.lwarx r ra rb nr)) ∧
      (misaligned x = false → s.reserve = true → checksBy 4 (.stwcx r ra rb)) ∧
      (zeroable → (∃ k, k < 32 ∧ FailsAt s true base 1 k) → checks (.dcbz ra rb nr))) ∧
    -- no access to make
    (misaligned x = false → s.reserve = false → (∀ k, k < 4 → s.permitted true (x + BitVec.ofNat 32 k) = true) →
      RunsTo (.stwcx r ra rb) s fun t => FieldBecomes 0 (fourBits false false false (xerSo s.xer)) false s t ∧ OnlyCr s t ∧
        t.freeCount = s.freeCount) ∧
    -- MSR[ME] = 0, or no error: the loads
    (∀ l ∈ scalarLoads r ra rb d nr, ∀ ea, dataReference l.instr s = some (false, ea, l.width) →
      (∀ k, k < l.width → plain false ea l.width k) → RunsTo l.instr s fun t =>
        (∃ f, reads f l.instr ea l.width l.width ∧ l.Leaves r ra ea (s.littleData false ea) f s t) ∧ t.hostLog = s.hostLog) ∧
    ((∀ k, k < 4 * (32 - r.toNat) → ¬SkipsByte (.lmw r ra d) s k → plain false (s.eaD ra d) 4 k) →
      RunsTo (.lmw r ra d) s fun t =>
        (∃ f, reads f (.lmw r ra d) (s.eaD ra d) 4 (4 * (32 - r.toNat)) ∧ LoadsMultiple r ra (s.eaD ra d) f s t) ∧
        t.hostLog = s.hostLog) ∧
    (let fills (i : Instr) (bases : List Reg) (ea : Word) (count : Nat) : Prop :=
      (∀ k, k < count → ¬SkipsByte i s k → plain false ea 1 k) → RunsTo i s fun t =>
        (∃ f, reads f i ea 1 count ∧ FillsRegisters r bases count nr f s t) ∧ t.hostLog = s.hostLog
     fills (.lswi r ra nb nr) [ra] (s.ra0 ra) (if nb = 0 then 32 else nb.toNat) ∧
     fills (.lswx r ra rb nr) [ra, rb] x (s.xer.toNat % 128)) ∧
    (misaligned x = false → (∀ k, k < 4 → plain false x 4 k) → RunsTo (.lwarx r ra rb nr) s fun t =>
      (∃ f, reads f (.lwarx r ra rb nr) x 4 4 ∧
        t.reg r = BitVec.ofNat 32 (bigEndianNat (inOrder (s.littleData false x) ((List.range 4).map f)))) ∧
      RegsKept [r] s t ∧ CrKept nr s t ∧
      t = { s with gpr := t.gpr, cr := t.cr, reserve := true, pc := s.pc + 4, freeCount := t.freeCount }) ∧
    -- MSR[ME] = 0, or no error: the stores
    (Memory.wf s.mem = true →
      (∀ l ∈ scalarStores r ra rb d nr, ∀ ea, dataReference l.instr s = some (true, ea, l.width) →
        (∀ k, k < l.width → plain true ea l.width k) → RunsTo l.instr s fun t =>
          StoredInRam ea l.width l.width (l.byte (s.littleData true ea) (s.reg r).toNat) s t ∧ l.Leaves ra ea s t ∧
          t.hostLog = s.hostLog) ∧
      ((∀ k, k < 4 * (32 - r.toNat) → plain true (s.eaD ra d) 4 k) → RunsTo (.stmw r ra d) s fun t =>
        StoredInRam (s.eaD ra d) 4 (4 * (32 - r.toNat)) (multipleByte r (s.eaD ra d) s) s t ∧ OnlyStores false s t) ∧
      (let stores (i : Instr) (ea : Word) (count : Nat) : Prop :=
        (∀ k, k < count → plain true ea 1 k) → RunsTo i s fun t =>
          StoredInRam ea 1 count (stringByteOf r s) s t ∧ OnlyStores nr s t
       stores (.stswi r ra nb nr) (s.ra0 ra) (if nb = 0 then 32 else nb.toNat) ∧
       stores (.stswx r ra rb nr) x (s.xer.toNat % 128)) ∧
      (misaligned x = false → s.reserve = true → (∀ k, k < 4 → plain true x 4 k) →
        RunsTo (.stwcx r ra rb) s fun t =>
          StoredInRam x 4 4 (fun k => byteOfNat 4 (if s.littleData true x then 3 - k else k) (s.reg r).toNat) s t ∧
          FieldBecomes 0 (fourBits false false true (xerSo s.xer)) false s t ∧
          t = { s with mem := t.mem, cr := t.cr, reserve := false, pc := s.pc + 4 }) ∧
      (zeroable → (∀ k, k < 32 → plain true base 1 k) → RunsTo (.dcbz ra rb nr) s fun t =>
        StoredInRam base 1 32 (fun _ => 0) s t ∧ OnlyStores nr s t))

/-- Devices: an access whose every byte is a device's changes no storage, and the host sees its single accesses in order: one of
the operand's width if it is naturally aligned, else its bytes in increasing address order; lmw and stmw make one such operand of
each word, the string instructions one of each byte, dcbz of each byte of its block; what is loaded is the device's answers
(20_memory.md R130, R133, R180, D8, D9, 41_storage_multiple_string_sync.md R310). A fetch is one load of a word. The device
answers the widths of these accesses; one it does not answer is in `DataBusErrors`. The model's choices (log entry 35): an answer
depends on the accesses before it; a fetch goes by its first byte, so that of a word over ranges of different kinds the device at
the first byte has the whole fetch, and a device at a later byte only has none of it and the word is read from storage. -/
def Obligations.DeviceAccesses : Prop :=
  ∀ (s : State) (r ra rb : Reg) (d : BitVec 16) (nb : BitVec 5) (nr : Bool),
    let x := s.eaX ra rb
    let base : Word := x &&& 0xFFFFFFE0
    (∀ l ∈ scalarLoads r ra rb d nr, ∀ ea, dataReference l.instr s = some (false, ea, l.width) → s.allDevice false ea l.width →
      RunsTo l.instr s fun t => l.Leaves r ra ea (s.littleData false ea) (s.deviceAnswer [] ea l.width) s t ∧
        Sees (s.deviceLoads ea l.width) s t) ∧
    (∀ l ∈ scalarStores r ra rb d nr, ∀ ea, dataReference l.instr s = some (true, ea, l.width) → s.allDevice true ea l.width →
      RunsTo l.instr s fun t => l.Leaves ra ea s t ∧ t.mem = s.mem ∧
        Sees (s.deviceStores ea l.width (l.byte (s.littleData true ea) (s.reg r).toNat)) s t) ∧
    (let word (j : Nat) : Word := s.eaD ra d + BitVec.ofNat 32 (4 * j)
     let reads (j : Nat) : Bool := decide (r.toNat + j ≠ ra.toNat) || decide (r.toNat + j = 31)
     let before (j : Nat) : List HostAccess := ((List.range j).filter reads).flatMap fun i => s.deviceLoads (word i) 4
     ((∀ j, j < 32 - r.toNat → reads j = true → s.allDevice false (word j) 4) →
       RunsTo (.lmw r ra d) s fun t =>
         LoadsMultiple r ra (s.eaD ra d) (fun k => s.deviceAnswer (before (k / 4)) (word (k / 4)) 4 (k % 4)) s t ∧
         Sees (before (32 - r.toNat)) s t) ∧
     ((∀ j, j < 32 - r.toNat → s.allDevice true (word j) 4) →
       RunsTo (.stmw r ra d) s fun t => OnlyStores false { s with hostLog := t.hostLog } t ∧ t.mem = s.mem ∧
         Sees ((List.range (32 - r.toNat)).flatMap fun j =>
           s.deviceStores (word j) 4 fun b => multipleByte r (s.eaD ra d) s (4 * j + b)) s t)) ∧
    (let fills (i : Instr) (bases : List Reg) (ea : Word) (count : Nat) : Prop :=
      let reads (k : Nat) : Bool :=
        bases.all (fun b => decide (stringTarget r (k / 4) ≠ b.toNat)) || decide (k / 4 + 1 = (count + 3) / 4)
      let before (k : Nat) : List HostAccess :=
        ((List.range k).filter reads).flatMap fun j => s.deviceLoads (ea + BitVec.ofNat 32 j) 1
      (∀ k, k < count → reads k = true → s.allDevice false (ea + BitVec.ofNat 32 k) 1) → RunsTo i s fun t =>
        FillsRegisters r bases count nr (fun k => s.deviceAnswer (before k) (ea + BitVec.ofNat 32 k) 1 0) s t ∧
        Sees (before count) s t
     let stores (i : Instr) (ea : Word) (count : Nat) : Prop := (∀ k, k < count → s.allDevice true (ea + BitVec.ofNat 32 k) 1) → RunsTo i s fun t =>
        OnlyStores nr { s with hostLog := t.hostLog } t ∧ t.mem = s.mem ∧
        Sees ((List.range count).flatMap fun k => s.deviceStores (ea + BitVec.ofNat 32 k) 1 fun _ => stringByteOf r s k) s t
     fills (.lswi r ra nb nr) [ra] (s.ra0 ra) (if nb = 0 then 32 else nb.toNat) ∧
     fills (.lswx r ra rb nr) [ra, rb] x (s.xer.toNat % 128) ∧
     stores (.stswi r ra nb nr) (s.ra0 ra) (if nb = 0 then 32 else nb.toNat) ∧
     stores (.stswx r ra rb nr) x (s.xer.toNat % 128)) ∧
    (misaligned x = false → s.allDevice false x 4 → RunsTo (.lwarx r ra rb nr) s fun t =>
      t.reg r = BitVec.ofNat 32 (bigEndianNat (inOrder (s.littleData false x) ((List.range 4).map (s.deviceAnswer [] x 4)))) ∧
      RegsKept [r] s t ∧ CrKept nr s t ∧ Sees (s.deviceLoads x 4) s t ∧ t = { s with
        gpr := t.gpr, cr := t.cr, reserve := true, pc := s.pc + 4, freeCount := t.freeCount, hostLog := t.hostLog }) ∧
    (misaligned x = false → s.allDevice true x 4 → RunsTo (.stwcx r ra rb) s fun t =>
      Sees (if s.reserve then s.deviceStores x 4 fun k => byteOfNat 4 (if s.littleData true x then 3 - k else k) (s.reg r).toNat
        else []) s t ∧
      FieldBecomes 0 (fourBits false false s.reserve (xerSo s.xer)) false s t ∧
      t = { s with cr := t.cr, reserve := false, pc := s.pc + 4, hostLog := t.hostLog }) ∧
    ((∀ k, k < 32 → s.allDevice true (base + BitVec.ofNat 32 k) 1) → (∀ real a, s.translateData true base = .real real a → a.i = false ∧ a.w = false) →
      RunsTo (.dcbz ra rb nr) s fun t => OnlyStores nr { s with hostLog := t.hostLog } t ∧ t.mem = s.mem ∧
        Sees ((List.range 32).flatMap fun k => s.deviceStores (base + BitVec.ofNat 32 k) 1 fun _ => 0) s t) ∧
    (∀ (real : Word) (little : Bool), s.fetchPlace = .real real little →
      (∃ loads stores, s.regionKind real = some (.device loads stores) ∧ 4 ∈ loads) →
      (∀ k, k < 4 → s.isHole (real + BitVec.ofNat 32 k) = false) →
      s.fetch = .ok (inOrder little ((List.range 4).map (Config.deviceByte s.hostLog real 4))) ∧ Sees [.load real 4] s s.afterFetch) ∧
    ∀ (real : Word) (little : Bool), s.fetchPlace = .real real little → s.isDevice real = false →
      (∀ k, k < 4 → s.isHole (real + BitVec.ofNat 32 k) = false) →
      s.fetch = .ok (inOrder little ((List.range 4).map fun k => Memory.read s.mem (real + BitVec.ofNat 32 k).toNat)) ∧
      Sees [] s s.afterFetch

/-- The UTLB search in exact arithmetic: a hit is the one entry whose page holds the address for the PID or for all, a miss
is none; the real address is the entry's real page with the offset inside the page (20_memory.md R142, R143). -/
def Obligations.TlbSearchAndRealAddress : Prop :=
  ∀ (s : State) (ea : Word),
    (∀ (i : Nat) (e : TlbEntry), s.lookup ea = .hit i e ↔
      ∃ h : i < 64, s.tlb[i] = e ∧ e.MatchesPage s.pid8 ea ∧
        ∀ (j : Nat) (hj : j < 64), (s.tlb[j]).MatchesPage s.pid8 ea → j = i) ∧
    (s.lookup ea = .miss ↔ ∀ (j : Nat) (hj : j < 64), ¬(s.tlb[j]).MatchesPage s.pid8 ea) ∧
    ∀ e : TlbEntry, (e.realAddress ea).toNat
      = e.rpn.toNat * 1024 / e.pageBytes * e.pageBytes + ea.toNat % e.pageBytes

/-- Protection of a data access. Translated, it misses if no valid entry matches (R145), and two matches, which R144 leaves
undefined, are told apart for the refusal of U8 (log entry 22; what becomes of both is in `DataTlbMissAtTheFirstByte`). On a match
the zone field, the WR bit and the U0 check decide: field 00 denies everything in problem state, 01 leaves it to WR, 10 in supervisor
state and 11 in both permit stores. Untranslated: the real address is the
effective one, the attributes are those of its 128 MB region, and only the U0 check may deny (20_memory.md R147, R148, R153,
R155). An untranslated fetch is at pc itself, in the order its region's SLER bit gives, without a check; a translated one that the
zone, the EX bit and the G bit permit is at the real address of its entry, in the order of the E bit, and no other translated fetch
has a place (R124, R140, R143, R146, R153); what takes its place is in `FailingFetchesTrap`. -/
def Obligations.ZoneProtection : Prop :=
  ∀ (s : State) (store : Bool) (ea : Word),
    (∀ (j : Nat) (e : TlbEntry), s.drBit = true → s.lookup ea = .hit j e →
      let z := (s.zpr.toNat / 2 ^ (30 - 2 * e.zsel.toNat)) % 4
      let writable : Bool := e.wr || z == 3 || (z == 2 && !s.prBit)
      let u0 : Bool := store && bitOf s.ccr0 14 && e.u0
      s.translateData store ea =
        if z = 0 ∧ s.prBit = true then .denied true false
        else if store = true ∧ writable = false then .denied false false
        else if u0 = true then .denied false true
        else .real (e.realAddress ea) { w := e.w, i := e.i, g := e.g, e := e.e, u0 := e.u0 }) ∧
    (s.drBit = true → s.lookup ea = .miss → s.translateData store ea = .miss) ∧
    (s.drBit = true → s.lookup ea = .duplicate → s.translateData store ea = .duplicate) ∧
    (s.drBit = false →
      let k := ea.toNat / 2 ^ 27
      s.translateData store ea =
        if store = true ∧ bitOf s.ccr0 14 = true ∧ bitOf s.su0r k = true then .denied false true
        else .real ea { w := bitOf s.dcwr k, i := !bitOf s.dccr k, g := bitOf s.sgr k, e := bitOf s.sler k,
                        u0 := bitOf s.su0r k }) ∧
    (s.irBit = false → s.fetchPlace = .real s.pc (bitOf s.sler (s.pc.toNat / 2 ^ 27))) ∧
    (∀ ra little, s.irBit = true → s.fetchPlace = .real ra little →
      ∃ j e, s.lookup s.pc = .hit j e ∧ ra = e.realAddress s.pc ∧ little = e.e ∧
        let z := (s.zpr.toNat / 2 ^ (30 - 2 * e.zsel.toNat)) % 4
        ¬(z = 0 ∧ s.prBit = true) ∧ (e.ex = true ∨ z = 3 ∨ (z = 2 ∧ s.prBit = false)) ∧ e.g = false) ∧
    ∀ (j : Nat) (e : TlbEntry), s.irBit = true → s.lookup s.pc = .hit j e →
      let z := (s.zpr.toNat / 2 ^ (30 - 2 * e.zsel.toNat)) % 4
      ¬(z = 0 ∧ s.prBit = true) → (e.ex = true ∨ z = 3 ∨ (z = 2 ∧ s.prBit = false)) → e.g = false →
      s.fetchPlace = .real (e.realAddress s.pc) e.e

/-! ## Arithmetic -/

/-- The CR0 of a record form: LT, GT and EQ compare the 32-bit result as stored with 0, SO copies XER[SO]; the other bits of CR
stay (00_scope.md R12; what each record form records is in the statements about the instructions). -/
def Obligations.RecordSetsCr0 : Prop :=
  ∀ (cr r xer : Word),
    crBit (crAfter cr true r xer) 0 = decide (r.toInt < 0) ∧ crBit (crAfter cr true r xer) 1 = decide (0 < r.toInt) ∧
    crBit (crAfter cr true r xer) 2 = decide (r.toInt = 0) ∧ crBit (crAfter cr true r xer) 3 = xerSo xer ∧
    ∀ j : BitVec 5, 4 ≤ j → crBit (crAfter cr true r xer) j = crBit cr j

/-- set_ov writes XER[OV] and sets XER[SO] if OV is 1; once set, XER[SO] stays set through every instruction but three: an
mtspr(XER) of a word with 0 there, mcrxr (00_scope.md R13), and an mtspr(DBCR0) of a nonzero RST, which resets the machine and
leaves XER unspecified (70_reset_and_hazards.md R701, 10_state.md R119). -/
def Obligations.SummaryOverflowIsSticky : Prop :=
  (∀ (xer : Word) (o : Bool), xerOv (withOv xer o) = o ∧ xerSo (withOv xer o) = (xerSo xer || o) ∧
    ∀ j, 2 ≤ j → j < 32 → bitOf (withOv xer o) j = bitOf xer j) ∧
  ∀ (i : Instr) (s t : State), exec i s = .next t → xerSo s.xer = true →
    xerSo t.xer = true ∨ (∃ r nr, i = .mtspr r 0x001 nr ∧ xerSo (s.reg r) = false) ∨ (∃ bf nr, i = .mcrxr bf nr) ∨
      ∃ r nr, i = .mtspr r 0x3F2 nr ∧ s.reg r &&& 0x30000000 ≠ 0

/-- The nine additions in exact arithmetic: the sum modulo 2^32, CA its carry where the instruction writes CA, OV whether the
exact signed sum leaves the range where OE = 1, CR0 where it records; nothing else changes (42_arithmetic.md R331 to R339). -/
def Obligations.AdditionsAreExact : Prop :=
  ∀ (s : State) (rt ra rb : Reg) (im : BitVec 16) (oe rc : Bool),
    let a := s.reg ra
    let b := s.reg rb
    let m : Word := im.signExtend 32
    let c := bitNat (xerCa s.xer)
    let sums (u : Nat) (x : Int) (ca oe rc : Bool) (t : State) : Prop :=
      Results rt (BitVec.ofNat 32 u) (if ca then some (decide (2 ^ 32 ≤ u)) else none) (ifOe oe (outsideSigned x)) rc s t
    RunsTo (.add rt ra rb oe rc) s (sums (a.toNat + b.toNat) (a.toInt + b.toInt) false oe rc) ∧
    RunsTo (.addc rt ra rb oe rc) s (sums (a.toNat + b.toNat) (a.toInt + b.toInt) true oe rc) ∧
    RunsTo (.adde rt ra rb oe rc) s (sums (a.toNat + b.toNat + c) (a.toInt + b.toInt + c) true oe rc) ∧
    RunsTo (.addme rt ra oe rc) s (sums (a.toNat + 0xFFFFFFFF + c) (a.toInt - 1 + c) true oe rc) ∧
    RunsTo (.addze rt ra oe rc) s (sums (a.toNat + c) (a.toInt + c) true oe rc) ∧
    RunsTo (.addic rt ra im) s (sums (a.toNat + m.toNat) 0 true false false) ∧
    RunsTo (.addicRc rt ra im) s (sums (a.toNat + m.toNat) 0 true false true) ∧
    RunsTo (.addi rt ra im) s (sums ((if ra = 0 then 0 else a.toNat) + m.toNat) 0 false false false) ∧
    RunsTo (.addis rt ra im) s (sums ((if ra = 0 then 0 else a.toNat) + 65536 * im.toNat) 0 false false false)

/-- The subtractions and the negation in exact arithmetic: the ones complement of RA is 2^32 - 1 - RA, CA is 1 exactly when
there is no borrow (42_arithmetic.md R346 to R352). -/
def Obligations.SubtractionsAreExact : Prop :=
  ∀ (s : State) (rt ra rb : Reg) (im : BitVec 16) (oe rc : Bool),
    let a := s.reg ra
    let na : Nat := 2 ^ 32 - 1 - a.toNat
    let b := s.reg rb
    let m : Word := im.signExtend 32
    let c := bitNat (xerCa s.xer)
    let sums (u : Nat) (x : Int) (ca oe rc : Bool) (t : State) : Prop :=
      Results rt (BitVec.ofNat 32 u) (if ca then some (decide (2 ^ 32 ≤ u)) else none) (ifOe oe (outsideSigned x)) rc s t
    RunsTo (.neg rt ra oe rc) s (sums (na + 1) (-a.toInt) false oe rc) ∧
    RunsTo (.subf rt ra rb oe rc) s (sums (na + b.toNat + 1) (b.toInt - a.toInt) false oe rc) ∧
    RunsTo (.subfc rt ra rb oe rc) s (sums (na + b.toNat + 1) (b.toInt - a.toInt) true oe rc) ∧
    RunsTo (.subfe rt ra rb oe rc) s (sums (na + b.toNat + c) (b.toInt - a.toInt - 1 + c) true oe rc) ∧
    RunsTo (.subfme rt ra oe rc) s (sums (na + 0xFFFFFFFF + c) (-a.toInt - 2 + c) true oe rc) ∧
    RunsTo (.subfze rt ra oe rc) s (sums (na + c) (-a.toInt - 1 + c) true oe rc) ∧
    RunsTo (.subfic rt ra im) s (sums (na + m.toNat + 1) 0 true false false)

/-- The multiplies in exact arithmetic: the low or the high half of the product of two words, OV of mullw whether the signed product
leaves the range (42_arithmetic.md R342 to R345); the whole product of the chosen halfwords (43_mac_halfword.md R390 to R395). -/
def Obligations.ProductsAreExact : Prop :=
  ∀ (s : State) (rt ra rb : Reg) (im : BitVec 16) (oe rc : Bool),
    let a := s.reg ra
    let b := s.reg rb
    RunsTo (.mulli rt ra im) s (Results rt (BitVec.ofInt 32 (a.toInt * im.toInt)) none none false s) ∧
    RunsTo (.mullw rt ra rb oe rc) s
      (Results rt (BitVec.ofInt 32 (a.toInt * b.toInt)) none (ifOe oe (outsideSigned (a.toInt * b.toInt))) rc s) ∧
    (RunsTo (.mulhw rt ra rb rc) s fun t => (t.reg rt).toInt * 2 ^ 32 ≤ a.toInt * b.toInt ∧
      a.toInt * b.toInt < (t.reg rt).toInt * 2 ^ 32 + 2 ^ 32 ∧ Results rt (t.reg rt) none none rc s t) ∧
    (RunsTo (.mulhwu rt ra rb rc) s fun t => (t.reg rt).toNat * 2 ^ 32 ≤ a.toNat * b.toNat ∧
      a.toNat * b.toNat < (t.reg rt).toNat * 2 ^ 32 + 2 ^ 32 ∧ Results rt (t.reg rt) none none rc s t) ∧
    let low (r : Reg) : Nat := (s.reg r).toNat % 65536
    let high (r : Reg) : Nat := (s.reg r).toNat / 65536
    let signed (x y : Nat) (t : State) : Prop :=
      (t.reg rt).toInt = signedHalf x * signedHalf y ∧ Results rt (t.reg rt) none none rc s t
    let unsigned (x y : Nat) (t : State) : Prop := (t.reg rt).toNat = x * y ∧ Results rt (t.reg rt) none none rc s t
    RunsTo (.mulchw rt ra rb rc) s (signed (low ra) (high rb)) ∧ RunsTo (.mulchwu rt ra rb rc) s (unsigned (low ra) (high rb)) ∧
    RunsTo (.mulhhw rt ra rb rc) s (signed (high ra) (high rb)) ∧
    RunsTo (.mulhhwu rt ra rb rc) s (unsigned (high ra) (high rb)) ∧
    RunsTo (.mullhw rt ra rb rc) s (signed (low ra) (low rb)) ∧ RunsTo (.mullhwu rt ra rb rc) s (unsigned (low ra) (low rb))

/-- divw gives the unique quotient whose remainder is smaller than the divisor and has the dividend's sign, divwu the unsigned
one; OV is 0. Where no quotient exists or fits, the instruction still completes: RT and CR0[LT, GT, EQ] are free, OV is 1, and
nothing else changes (42_arithmetic.md R340, R341, U4). -/
def Obligations.DivisionsAreExact : Prop :=
  ∀ (s : State) (rt ra rb : Reg) (oe rc : Bool),
    let a := s.reg ra
    let b := s.reg rb
    let undefined (t : State) : Prop := RegsKept [rt] s t ∧ XerBecomes none (ifOe oe true) s t ∧ (rc = false → t.cr = s.cr) ∧
      (∀ k, k ≠ 0 → crField t.cr k = crField s.cr k) ∧ (rc = true → crBit t.cr 3 = xerSo t.xer) ∧ t.pc = s.pc + 4 ∧
      OnlyUserResults s t
    (b ≠ 0 → ¬(a.toInt = -2 ^ 31 ∧ b.toInt = -1) → RunsTo (.divw rt ra rb oe rc) s fun t =>
      (∃ r : Int, a.toInt = (t.reg rt).toInt * b.toInt + r ∧ r.natAbs < b.toInt.natAbs ∧ (0 ≤ a.toInt → 0 ≤ r) ∧
        (a.toInt ≤ 0 → r ≤ 0)) ∧ Results rt (t.reg rt) none (ifOe oe false) rc s t) ∧
    (b = 0 ∨ (a.toInt = -2 ^ 31 ∧ b.toInt = -1) → RunsTo (.divw rt ra rb oe rc) s undefined) ∧
    (b ≠ 0 → RunsTo (.divwu rt ra rb oe rc) s fun t =>
      (∃ r : Nat, a.toNat = (t.reg rt).toNat * b.toNat + r ∧ r < b.toNat) ∧
        Results rt (t.reg rt) none (ifOe oe false) rc s t) ∧
    (b = 0 → RunsTo (.divwu rt ra rb oe rc) s undefined)

/-! ## Multiply-accumulate -/

/-- The twelve signed accumulates in exact arithmetic, with the product of the chosen halfwords, negated in the nmac forms:
modulo 2^32, or in the saturating forms the nearest signed word; OV whether the exact sum leaves the range
(43_mac_halfword.md R371 to R389). -/
def Obligations.SignedAccumulates : Prop :=
  ∀ (s : State) (rt ra rb : Reg) (oe rc : Bool),
    let lowA := (lowHalf (s.reg ra)).toInt
    let highA := (highHalf (s.reg ra)).toInt
    let lowB := (lowHalf (s.reg rb)).toInt
    let highB := (highHalf (s.reg rb)).toInt
    let modulo (p : Int) : State → Prop := let x := p + (s.reg rt).toInt
      Results rt (BitVec.ofInt 32 x) none (ifOe oe (outsideSigned x)) rc s
    let saturates (p : Int) : State → Prop := let x := p + (s.reg rt).toInt
      Results rt (BitVec.ofInt 32 (nearestSigned x)) none (ifOe oe (outsideSigned x)) rc s
    RunsTo (.macchw rt ra rb oe rc) s (modulo (lowA * highB)) ∧ RunsTo (.machhw rt ra rb oe rc) s (modulo (highA * highB)) ∧
    RunsTo (.maclhw rt ra rb oe rc) s (modulo (lowA * lowB)) ∧ RunsTo (.nmacchw rt ra rb oe rc) s (modulo (-(lowA * highB))) ∧
    RunsTo (.nmachhw rt ra rb oe rc) s (modulo (-(highA * highB))) ∧
    RunsTo (.nmaclhw rt ra rb oe rc) s (modulo (-(lowA * lowB))) ∧
    RunsTo (.macchws rt ra rb oe rc) s (saturates (lowA * highB)) ∧
    RunsTo (.machhws rt ra rb oe rc) s (saturates (highA * highB)) ∧
    RunsTo (.maclhws rt ra rb oe rc) s (saturates (lowA * lowB)) ∧
    RunsTo (.nmacchws rt ra rb oe rc) s (saturates (-(lowA * highB))) ∧
    RunsTo (.nmachhws rt ra rb oe rc) s (saturates (-(highA * highB))) ∧
    RunsTo (.nmaclhws rt ra rb oe rc) s (saturates (-(lowA * lowB)))

/-- The six unsigned accumulates in exact arithmetic: modulo 2^32, or in the saturating forms at most 2^32 - 1; OV whether the
exact sum reaches 2^32 (43_mac_halfword.md R371, R374, R375, R378, R379, R382, R383). -/
def Obligations.UnsignedAccumulates : Prop :=
  ∀ (s : State) (rt ra rb : Reg) (oe rc : Bool),
    let lowA := (lowHalf (s.reg ra)).toNat
    let highA := (highHalf (s.reg ra)).toNat
    let lowB := (lowHalf (s.reg rb)).toNat
    let highB := (highHalf (s.reg rb)).toNat
    let modulo (p : Nat) : State → Prop := let x := p + (s.reg rt).toNat
      Results rt (BitVec.ofNat 32 x) none (ifOe oe (decide (2 ^ 32 ≤ x))) rc s
    let saturates (p : Nat) : State → Prop := let x := p + (s.reg rt).toNat
      Results rt (BitVec.ofNat 32 (min x (2 ^ 32 - 1))) none (ifOe oe (decide (2 ^ 32 ≤ x))) rc s
    RunsTo (.macchwu rt ra rb oe rc) s (modulo (lowA * highB)) ∧ RunsTo (.machhwu rt ra rb oe rc) s (modulo (highA * highB)) ∧
    RunsTo (.maclhwu rt ra rb oe rc) s (modulo (lowA * lowB)) ∧
    RunsTo (.macchwsu rt ra rb oe rc) s (saturates (lowA * highB)) ∧
    RunsTo (.machhwsu rt ra rb oe rc) s (saturates (highA * highB)) ∧
    RunsTo (.maclhwsu rt ra rb oe rc) s (saturates (lowA * lowB))

/-! ## Logical, compare, rotate, shift -/

/-- The fourteen bitwise operations, bit by bit in the manual's numbering; an immediate stands in bits 16 to 31, or in bits 0 to
15 in the shifted forms. cntlzw counts the 0 bits before the first 1; extsb and extsh keep the signed value of the low byte or
halfword (44_logical_compare.md R411 to R427). -/
def Obligations.LogicalBitByBit : Prop :=
  ∀ (s : State) (rs ra rb : Reg) (im : BitVec 16) (rc : Bool),
    let bitwise (f : Bool → Bool → Bool) (y : Nat → Bool) (rc : Bool) (t : State) : Prop :=
      (∀ j, j < 32 → bitOf (t.reg ra) j = f (bitOf (s.reg rs) j) (y j)) ∧ Results ra (t.reg ra) none none rc s t
    let b (j : Nat) : Bool := bitOf (s.reg rb) j
    let low (j : Nat) : Bool := decide (16 ≤ j) && im.getMsbD (j - 16)
    let high (j : Nat) : Bool := decide (j < 16) && im.getMsbD j
    RunsTo (.and rs ra rb rc) s (bitwise (fun x y => x && y) b rc) ∧
    RunsTo (.andc rs ra rb rc) s (bitwise (fun x y => x && !y) b rc) ∧
    RunsTo (.or rs ra rb rc) s (bitwise (fun x y => x || y) b rc) ∧
    RunsTo (.orc rs ra rb rc) s (bitwise (fun x y => x || !y) b rc) ∧
    RunsTo (.xor rs ra rb rc) s (bitwise (fun x y => x != y) b rc) ∧
    RunsTo (.eqv rs ra rb rc) s (bitwise (fun x y => x == y) b rc) ∧
    RunsTo (.nand rs ra rb rc) s (bitwise (fun x y => !(x && y)) b rc) ∧
    RunsTo (.nor rs ra rb rc) s (bitwise (fun x y => !(x || y)) b rc) ∧
    RunsTo (.andi rs ra im) s (bitwise (fun x y => x && y) low true) ∧
    RunsTo (.andis rs ra im) s (bitwise (fun x y => x && y) high true) ∧
    RunsTo (.ori rs ra im) s (bitwise (fun x y => x || y) low false) ∧
    RunsTo (.oris rs ra im) s (bitwise (fun x y => x || y) high false) ∧
    RunsTo (.xori rs ra im) s (bitwise (fun x y => x != y) low false) ∧
    RunsTo (.xoris rs ra im) s (bitwise (fun x y => x != y) high false) ∧
    let x := s.reg rs
    (RunsTo (.cntlzw rs ra rc) s fun t =>
      (∀ j, j < (t.reg ra).toNat → bitOf x j = false) ∧ ((t.reg ra).toNat < 32 ∧ bitOf x (t.reg ra).toNat = true ∨
        (t.reg ra).toNat = 32 ∧ x = 0) ∧ Results ra (t.reg ra) none none rc s t) ∧
    (RunsTo (.extsb rs ra rc) s fun t => (t.reg ra).toInt = (BitVec.ofNat 8 x.toNat).toInt ∧
      Results ra (t.reg ra) none none rc s t) ∧
    RunsTo (.extsh rs ra rc) s fun t => (t.reg ra).toInt = signedHalf x.toNat ∧ Results ra (t.reg ra) none none rc s t

/-- The compares write the chosen CR field: less, greater, equal, as signed or unsigned numbers, and a copy of XER[SO]; no
other field changes (44_logical_compare.md R428 to R431; with bit 31 set CR0 is free, U1). -/
def Obligations.ComparesWriteTheirField : Prop :=
  ∀ (s : State) (bf : BitVec 3) (ra rb : Reg) (im : BitVec 16) (nr : Bool),
    let signed (x y : Int) (nr : Bool) (t : State) : Prop :=
      FieldBecomes bf (fourBits (decide (x < y)) (decide (y < x)) (decide (x = y)) (xerSo s.xer)) nr s t ∧ OnlyCr s t
    let unsigned (x y : Nat) (nr : Bool) (t : State) : Prop :=
      FieldBecomes bf (fourBits (decide (x < y)) (decide (y < x)) (decide (x = y)) (xerSo s.xer)) nr s t ∧ OnlyCr s t
    RunsTo (.cmp bf ra rb nr) s (signed (s.reg ra).toInt (s.reg rb).toInt nr) ∧
    RunsTo (.cmpi bf ra im) s (signed (s.reg ra).toInt im.toInt false) ∧
    RunsTo (.cmpl bf ra rb nr) s (unsigned (s.reg ra).toNat (s.reg rb).toNat nr) ∧
    RunsTo (.cmpli bf ra im) s (unsigned (s.reg ra).toNat im.toNat false)

/-- The rotates under a mask, bit by bit: bit j of a rotation by n is bit (j + n) mod 32; MASK(mb, me) runs from mb through me
and wraps if mb > me; outside the mask rlwimi keeps RA, the others give 0 (46_rotate_shift.md R480 to R483). -/
def Obligations.RotatesUnderMask : Prop :=
  ∀ (s : State) (rs ra rb : Reg) (sh mb me : BitVec 5) (rc : Bool),
    let inMask (j : Nat) : Bool :=
      if mb ≤ me then decide (mb.toNat ≤ j) && decide (j ≤ me.toNat) else decide (mb.toNat ≤ j) || decide (j ≤ me.toNat)
    let rotated (n j : Nat) : Bool := bitOf (s.reg rs) ((j + n) % 32)
    (RunsTo (.rlwimi rs ra sh mb me rc) s fun t => Results ra (t.reg ra) none none rc s t ∧
      ∀ j, j < 32 → bitOf (t.reg ra) j = if inMask j then rotated sh.toNat j else bitOf (s.reg ra) j) ∧
    (RunsTo (.rlwinm rs ra sh mb me rc) s fun t => Results ra (t.reg ra) none none rc s t ∧
      ∀ j, j < 32 → bitOf (t.reg ra) j = if inMask j then rotated sh.toNat j else false) ∧
    RunsTo (.rlwnm rs ra rb mb me rc) s fun t => Results ra (t.reg ra) none none rc s t ∧
      ∀ j, j < 32 → bitOf (t.reg ra) j = if inMask j then rotated ((s.reg rb).toNat % 32) j else false

/-- The shifts in exact arithmetic, the count 0 to 63 from RB: slw multiplies by 2^n modulo 2^32, srw divides, sraw and srawi
divide the signed number rounding down, CA whether that number is negative and the division is not exact
(46_rotate_shift.md R484 to R487). -/
def Obligations.ShiftsScale : Prop :=
  ∀ (s : State) (rs ra rb : Reg) (sh : BitVec 5) (rc : Bool),
    let x := s.reg rs
    let n := (s.reg rb).toNat % 64
    let algebraic (n : Nat) (t : State) : Prop := (t.reg ra).toInt = x.toInt / 2 ^ n ∧
      Results ra (t.reg ra) (some (decide (x.toInt < 0 ∧ x.toInt % 2 ^ n ≠ 0))) none rc s t
    (RunsTo (.slw rs ra rb rc) s fun t => (t.reg ra).toNat = x.toNat * 2 ^ n % 2 ^ 32 ∧
      Results ra (t.reg ra) none none rc s t) ∧
    (RunsTo (.srw rs ra rb rc) s fun t => (t.reg ra).toNat = x.toNat / 2 ^ n ∧ Results ra (t.reg ra) none none rc s t) ∧
    RunsTo (.sraw rs ra rb rc) s (algebraic n) ∧ RunsTo (.srawi rs ra sh rc) s (algebraic sh.toNat)

/-! ## Branch and condition register -/

/-- The branch targets, modulo 2^32: relative or absolute, LR before the update, CTR after the decrement, the last two word
aligned; LR gets the next address if LK = 1, taken or not (45_branch_cr_logical.md R450). CTR is decremented if BO[2] = 0; the
branch is taken if BO[2] = 1 or (CTR = 0) = BO[3], and BO[0] = 1 or the CR bit equals BO[1] (R451, R454 to R457). The invalid forms
follow the spec's decision D7 (log entry 11): nonzero z bits of BO change nothing, and bcctr with BO[2] = 0 branches as its
pseudocode says and leaves CTR free (U2). -/
def Obligations.BranchesGoToTheirTarget : Prop :=
  ∀ (s : State) (li : BitVec 24) (bo bi : BitVec 5) (bd : BitVec 14) (aa lk : Bool),
    let lr : Word := if lk then s.pc + 4 else s.lr
    let goes (target : Word) (t : State) : Prop :=
      (Taken bo bi s → t.pc = target) ∧ (¬Taken bo bi s → t.pc = s.pc + 4)
    let branches (target : Word) (t : State) : Prop := t = { s with ctr := counted bo s, lr := lr, pc := t.pc } ∧ goes target t
    RunsTo (.b li aa lk) s (fun t => t = { s with
      lr := lr, pc := BitVec.ofInt 32 ((if aa then 0 else s.pc.toInt) + 4 * li.toInt) }) ∧
    RunsTo (.bc bo bi bd aa lk) s (branches (BitVec.ofInt 32 ((if aa then 0 else s.pc.toInt) + 4 * bd.toInt))) ∧
    RunsTo (.bclr bo bi lk) s (branches (s.lr &&& 0xFFFFFFFC)) ∧
    (bo.getMsbD 2 = true → RunsTo (.bcctr bo bi lk) s (branches (s.ctr &&& 0xFFFFFFFC))) ∧
    (bo.getMsbD 2 = false → RunsTo (.bcctr bo bi lk) s fun t =>
      t = { s with ctr := t.ctr, lr := lr, pc := t.pc, freeCount := t.freeCount } ∧ goes ((s.ctr - 1) &&& 0xFFFFFFFC) t)

/-- The CR logical instructions write one CR bit with their function of two; mcrf copies a field; no other bit changes
(45_branch_cr_logical.md R458 to R466; with bit 31 set, an invalid form, CR0 is free: U1, 30_encoding.md R246 (b), log entry 13).
Their words have OPCD 19 and the rule's XO; the XO of creqv, cror and crorc are what the spec adds from general knowledge (R460,
R463, R464). -/
def Obligations.CrLogicalWritesOneBit : Prop :=
  (∀ w : Word, (opcd w).toNat = 19 → ∀ p ∈ ([(257, Instr.crand), (129, .crandc), (289, .creqv), (225, .crnand), (33, .crnor),
      (449, .cror), (417, .crorc), (193, .crxor)] : List (Nat × (BitVec 5 → BitVec 5 → BitVec 5 → Bool → Instr))),
    (xo10 w).toNat = p.1 → decodeWord w = .ok (p.2 (f06 w) (f11 w) (f16 w) (bit31 w))) ∧
  (∀ w : Word, (opcd w).toNat = 19 → (xo10 w).toNat = 0 → decodeWord w = .ok (.mcrf (bfField w) (bfaField w) (bit31 w))) ∧
  ∀ (s : State) (bt ba bb : BitVec 5) (bf bfa : BitVec 3) (nr : Bool),
    let writes (f : Bool → Bool → Bool) (t : State) : Prop :=
      (∀ j : BitVec 5, (nr = false ∨ 4 ≤ j) →
        crBit t.cr j = if j = bt then f (crBit s.cr ba) (crBit s.cr bb) else crBit s.cr j) ∧ OnlyCr s t
    RunsTo (.crand bt ba bb nr) s (writes fun x y => x && y) ∧ RunsTo (.crandc bt ba bb nr) s (writes fun x y => x && !y) ∧
    RunsTo (.creqv bt ba bb nr) s (writes fun x y => x == y) ∧ RunsTo (.crnand bt ba bb nr) s (writes fun x y => !(x && y)) ∧
    RunsTo (.crnor bt ba bb nr) s (writes fun x y => !(x || y)) ∧ RunsTo (.cror bt ba bb nr) s (writes fun x y => x || y) ∧
    RunsTo (.crorc bt ba bb nr) s (writes fun x y => x || !y) ∧ RunsTo (.crxor bt ba bb nr) s (writes fun x y => x != y) ∧
    RunsTo (.mcrf bf bfa nr) s fun t => FieldBecomes bf (crField s.cr bfa) nr s t ∧ OnlyCr s t

/-- mcrxr moves XER[SO, OV, CA] to a CR field and clears them; mfcr reads CR; mtcrf writes the fields FXM selects
(49_processor_management.md R563, R564, R566). -/
def Obligations.CrAndXerMoves : Prop :=
  ∀ (s : State) (r : Reg) (bf : BitVec 3) (fxm : BitVec 8) (nr : Bool),
    (RunsTo (.mcrxr bf nr) s fun t =>
      FieldBecomes bf (fourBits (xerSo s.xer) (xerOv s.xer) (xerCa s.xer) false) nr s t ∧ t.xer = s.xer &&& 0x1FFFFFFF ∧
      t = { s with cr := t.cr, xer := t.xer, pc := s.pc + 4, freeCount := t.freeCount }) ∧
    RunsTo (.mfcr r nr) s (Loads r s.cr nr s) ∧
    RunsTo (.mtcrf r fxm nr) s fun t => (∀ k : BitVec 3, (nr = false ∨ k ≠ 0) →
      crField t.cr k = if fxm.getMsbD k.toNat then crField (s.reg r) k else crField s.cr k) ∧ OnlyCr s t

/-! ## Cache management and synchronisation -/

/-- The hints and the synchronising instructions only advance, whatever their address; the cache operations only advance when
their operand passes its checks, in supervisor state where they are privileged (47_cache_management.md R501 to R512,
49_processor_management.md R561, R562, R568, 48_interrupt_control_tlb.md R542, 20_memory.md R149, R176, D12). -/
def Obligations.NoOperationsOnlyAdvance : Prop :=
  ∀ (s : State) (ra rb : Reg) (nr : Bool),
    (∀ i ∈ ([.dcba ra rb nr, .dcbt ra rb nr, .dcbtst ra rb nr, .icbt ra rb nr, .sync nr, .isync nr, .eieio nr] : List Instr),
      RunsTo i s (OnlyAdvances nr s)) ∧
    (s.permitted false (s.eaX ra rb) = true →
      ∀ i ∈ ([.dcbf ra rb nr, .dcbst ra rb nr, .icbi ra rb nr] : List Instr), RunsTo i s (OnlyAdvances nr s)) ∧
    (s.prBit = false → s.permitted true (s.eaX ra rb) = true →
      ∀ i ∈ ([.dcbi ra rb nr, .dccci ra rb nr] : List Instr), RunsTo i s (OnlyAdvances nr s)) ∧
    (s.prBit = false → ∀ i ∈ ([.iccci ra rb nr, .tlbsync nr] : List Instr), RunsTo i s (OnlyAdvances nr s))

/-- dcbz stores 32 zero bytes in the block of its address, in cachable copy-back storage; dcread and icread complete in
supervisor state with a free value in RT or ICDBDR and change nothing else (47_cache_management.md R507, R509, R517, U14). -/
def Obligations.CacheInstructionsWithAnEffect : Prop :=
  ∀ (s : State) (rt ra rb : Reg) (nr : Bool),
    let base : Word := s.eaX ra rb &&& 0xFFFFFFE0
    (Memory.wf s.mem = true → s.allAccessible true (byteAddresses base 32) = true →
      (∀ real a, s.translateData true base = .real real a → a.i = false ∧ a.w = false) →
      RunsTo (.dcbz ra rb nr) s fun t => Holds false base 32 0 s t ∧ KeptOutside base 32 s t ∧ OnlyStores nr s t) ∧
    (s.prBit = false → s.permitted false (s.eaX ra rb) = true →
      (misaligned (s.eaX ra rb) = false →
        RunsTo (.dcread rt ra rb nr) s fun t => OnlyMoves [rt] nr s t ∧ t.mem = s.mem) ∧
      RunsTo (.icread ra rb nr) s fun t => CrKept nr s t ∧
        t = { s with icdbdr := t.icdbdr, cr := t.cr, pc := s.pc + 4, freeCount := t.freeCount })

/-! ## Interrupt control and TLB -/

/-- The MSR moves in supervisor state: mfmsr reads it, mtmsr writes its implemented bits, wrtee and wrteei write MSR[EE]
(bit 16) only (48_interrupt_control_tlb.md R531, R532, R535, R536, D21). rfi and rfci load pc and MSR from their own pair (the
address word aligned, the MSR's implemented bits) and restore nothing else; in problem state they trap (60_exceptions.md R617,
48_interrupt_control_tlb.md R533, R534). -/
def Obligations.MachineStateMovesAndReturns : Prop :=
  (∀ (s : State) (r : Reg) (e nr : Bool), s.prBit = false →
    let sets (p : Word → Prop) (t : State) : Prop := p t.msr ∧ CrKept nr s t ∧
      t = { s with msr := t.msr, cr := t.cr, pc := s.pc + 4, freeCount := t.freeCount }
    let onlyEe (b : Bool) (m : Word) : Prop := bitOf m 16 = b ∧ ∀ j, j < 32 → j ≠ 16 → bitOf m j = bitOf s.msr j
    RunsTo (.mfmsr r nr) s (Loads r s.msr nr s) ∧ RunsTo (.mtmsr r nr) s (sets fun m => m = s.reg r &&& 0x020EFF30) ∧
    RunsTo (.wrtee r nr) s (sets (onlyEe (bitOf (s.reg r) 16))) ∧ RunsTo (.wrteei e nr) s (sets (onlyEe e))) ∧
  ∀ (s : State) (nr : Bool),
    let returns (address status : Word) (t : State) : Prop := CrKept nr s t ∧
      t = { s with pc := address &&& 0xFFFFFFFC, msr := status &&& 0x020EFF30, cr := t.cr, freeCount := t.freeCount }
    (s.prBit = false → RunsTo (.rfi nr) s (returns s.srr0 s.srr1) ∧ RunsTo (.rfci nr) s (returns s.srr2 s.srr3)) ∧
    (s.prBit = true → ∀ i ∈ ([.rfi nr, .rfci nr] : List Instr), RunsTo i s fun t =>
      Takes .program s.pc s t ∧ Syndrome 0x04000000 s t)

/-- tlbwe writes one half of the entry the low six bits of RA select, the TID from PID; tlbre reads one half, the TID into PID;
tlbia clears every V bit and nothing else (48_interrupt_control_tlb.md R540, R541, R544). With WS[0:3] not 0, an invalid form, RT
of tlbre is free and the rest is as WS[4] says (D7, U2). -/
def Obligations.TlbWordsMove : Prop :=
  ∀ (s : State) (r ra : Reg) (ws : BitVec 5) (nr : Bool) (j : Nat) (hj : j < 64), s.prBit = false →
    (s.reg ra).toNat % 64 = j →
    let e := s.tlb[j]
    let v := s.reg r
    let low : Bool := ws.getMsbD 4
    (RunsTo (.tlbwe r ra ws nr) s fun t =>
      (∀ (k : Nat) (hk : k < 64), k ≠ j → t.tlb[k] = s.tlb[k]) ∧
      (low = true → (t.tlb[j]).rpn.toNat = v.toNat / 1024 ∧ (t.tlb[j]).zsel.toNat = v.toNat / 16 % 16 ∧
        t.tlb[j] = { e with rpn := (t.tlb[j]).rpn, ex := bitOf v 22, wr := bitOf v 23, zsel := (t.tlb[j]).zsel,
                            w := bitOf v 28, i := bitOf v 29, m := bitOf v 30, g := bitOf v 31 }) ∧
      (low = false → (t.tlb[j]).epn.toNat = v.toNat / 1024 ∧ (t.tlb[j]).size.toNat = v.toNat / 128 % 8 ∧
        (t.tlb[j]).tid.toNat = s.pid.toNat % 256 ∧
        t.tlb[j] = { e with epn := (t.tlb[j]).epn, size := (t.tlb[j]).size, v := bitOf v 25, e := bitOf v 26,
                            u0 := bitOf v 27, tid := (t.tlb[j]).tid }) ∧
      CrKept nr s t ∧ t = { s with tlb := t.tlb, cr := t.cr, pc := s.pc + 4, freeCount := t.freeCount }) ∧
    (RunsTo (.tlbre r ra ws nr) s fun t => RegsKept [r] s t ∧ CrKept nr s t ∧
      (ws = 1 → (t.reg r).toNat = e.rpn.toNat * 1024 + bitNat e.ex * 512 + bitNat e.wr * 256 + e.zsel.toNat * 16
        + bitNat e.w * 8 + bitNat e.i * 4 + bitNat e.m * 2 + bitNat e.g) ∧ (low = true → t.pid = s.pid) ∧
      (ws = 0 → (t.reg r).toNat = e.epn.toNat * 1024 + e.size.toNat * 128 + bitNat e.v * 64 + bitNat e.e * 32
        + bitNat e.u0 * 16) ∧ (low = false → t.pid.toNat = e.tid.toNat) ∧
      t = { s with gpr := t.gpr, pid := t.pid, cr := t.cr, pc := s.pc + 4, freeCount := t.freeCount }) ∧
    RunsTo (.tlbia nr) s fun t => (∀ (k : Nat) (hk : k < 64), t.tlb[k] = { s.tlb[k] with v := false }) ∧ CrKept nr s t ∧
      t = { s with tlb := t.tlb, cr := t.cr, pc := s.pc + 4, freeCount := t.freeCount }

/-- tlbsx in supervisor state: RT is the index of the matching entry, or free if none matches; the record form tells which in
CR0[EQ]; two matches are refused (48_interrupt_control_tlb.md R543, U8, U15). -/
def Obligations.TlbSearchInstruction : Prop :=
  ∀ (s : State) (rt ra rb : Reg) (rc : Bool), s.prBit = false →
    let records (found : Bool) (t : State) : Prop := RegsKept [rt] s t ∧ (rc = false → t.cr = s.cr) ∧
      (rc = true → FieldBecomes 0 (fourBits false false found (xerSo s.xer)) false s t) ∧
      t = { s with gpr := t.gpr, cr := t.cr, pc := s.pc + 4, freeCount := t.freeCount }
    (∀ j e, s.lookup (s.eaX ra rb) = .hit j e →
      RunsTo (.tlbsx rt ra rb rc) s fun t => (t.reg rt).toNat = j ∧ records true t) ∧
    (s.lookup (s.eaX ra rb) = .miss → RunsTo (.tlbsx rt ra rb rc) s (records false)) ∧
    (s.lookup (s.eaX ra rb) = .duplicate → exec (.tlbsx rt ra rb rc) s = .refused .duplicateTlbEntries)

/-! ## Processor management -/

/-- mfdcr gives RT the host's value of a mapped number and mtdcr hands RS to the host, in supervisor state; an unmapped number
reads a free value and ignores a write, and the host sees neither (49_processor_management.md R565, R567, 10_state.md R112, D10,
U18). The model's choice (log entry 25): the host's log records each access to a mapped number, and the value read is a function
of the number and of that log alone. -/
def Obligations.DcrMoves : Prop :=
  ∀ (s : State) (r : Reg) (n : BitVec 10) (nr : Bool), s.prBit = false →
    (n ∈ s.dcrSpace →
      RunsTo (.mfdcr r n nr) s (Loads r (Config.dcrValue s.hostLog n) nr { s with hostLog := .dcrRead n :: s.hostLog }) ∧
      RunsTo (.mtdcr r n nr) s (OnlyAdvances nr { s with hostLog := .dcrWrite n (s.reg r) :: s.hostLog })) ∧
    (n ∉ s.dcrSpace →
      (RunsTo (.mfdcr r n nr) s fun t => OnlyMoves [r] nr s t ∧ t.mem = s.mem) ∧
      RunsTo (.mtdcr r n nr) s (OnlyAdvances nr s))

/-- mfspr reads the register its number names, mftb a half of the time base; a number with bit 0x010 needs supervisor state; a
number that names no register reads a free value (10_state.md R33, 49_processor_management.md R570 to R572, U12). -/
def Obligations.SprReads : Prop :=
  ∀ (s : State) (r : Reg) (n : BitVec 10) (nr : Bool), (n.getLsbD 4 = true → s.prBit = false) →
    (∀ p ∈ ([(0x001#10, s.xer), (0x008#10, s.lr), (0x009#10, s.ctr), (0x01A#10, s.srr0), (0x01B#10, s.srr1), (0x100#10, s.usprg0),
        (0x104#10, s.sprg[4]), (0x105#10, s.sprg[5]), (0x106#10, s.sprg[6]), (0x107#10, s.sprg[7]), (0x110#10, s.sprg[0]),
        (0x111#10, s.sprg[1]), (0x112#10, s.sprg[2]), (0x113#10, s.sprg[3]), (0x114#10, s.sprg[4]), (0x115#10, s.sprg[5]),
        (0x116#10, s.sprg[6]), (0x117#10, s.sprg[7]), (0x11F#10, s.pvr), (0x3B0#10, s.zpr), (0x3B1#10, s.pid), (0x3B3#10, s.ccr0),
        (0x3B4#10, s.iac3), (0x3B5#10, s.iac4), (0x3B6#10, s.dvc1), (0x3B7#10, s.dvc2), (0x3B9#10, s.sgr), (0x3BA#10, s.dcwr),
        (0x3BB#10, s.sler), (0x3BC#10, s.su0r), (0x3BD#10, s.dbcr1), (0x3D3#10, s.icdbdr), (0x3D4#10, s.esr), (0x3D5#10, s.dear),
        (0x3D6#10, s.evpr), (0x3D8#10, s.tsr), (0x3DA#10, s.tcr), (0x3DB#10, s.pit), (0x3DE#10, s.srr2), (0x3DF#10, s.srr3),
        (0x3F0#10, s.dbsr), (0x3F2#10, s.dbcr0), (0x3F4#10, s.iac1), (0x3F5#10, s.iac2), (0x3F6#10, s.dac1), (0x3F7#10, s.dac2),
        (0x3FA#10, s.dccr), (0x3FB#10, s.iccr)] : List (BitVec 10 × Word)), n = p.1 → RunsTo (.mfspr r n nr) s (Loads r p.2 nr s)) ∧
    (n.toNat ∉ readableSprs → RunsTo (.mfspr r n nr) s fun t => OnlyMoves [r] nr s t ∧ t.mem = s.mem) ∧
    (n = 0x10C → RunsTo (.mftb r n nr) s (Loads r s.tbl nr s)) ∧
    (n = 0x10D → RunsTo (.mftb r n nr) s (Loads r s.tbu nr s)) ∧
    (n ≠ 0x10C → n ≠ 0x10D → RunsTo (.mftb r n nr) s fun t => OnlyMoves [r] nr s t ∧ t.mem = s.mem)

/-- mtspr writes the implemented bits of the register its number names, with each register's own behaviour: TSR and DBSR are
cleared by ones, TCR[WRC] is sticky, a write of PIT also sets its reload value, PVR and ICDBDR ignore the write, a number that
names no register does nothing (10_state.md R33, R60, R61, R92, 49_processor_management.md R573, D21, D22, U12). The masks of
SRR0 and SRR2 are the model's choice (log entry 15): bits 30:31 are not written, by 10_state.md R50, R51, R34 and D21, where
R573's table writes all 32. -/
def Obligations.SprWrites : Prop :=
  ∀ (s : State) (r : Reg) (n : BitVec 10) (nr : Bool), (n.getLsbD 4 = true → s.prBit = false) →
    let v := s.reg r
    let leaves (u t : State) : Prop := CrKept nr s t ∧ t = { u with cr := t.cr, pc := s.pc + 4, freeCount := t.freeCount }
    (∀ p ∈ ([(0x001#10, { s with xer := v &&& 0xE000007F }), (0x008#10, { s with lr := v }), (0x009#10, { s with ctr := v }),
        (0x01A#10, { s with srr0 := v &&& 0xFFFFFFFC }), (0x01B#10, { s with srr1 := v }), (0x100#10, { s with usprg0 := v }),
        (0x110#10, { s with sprg := s.sprg.set 0 v }), (0x111#10, { s with sprg := s.sprg.set 1 v }),
        (0x112#10, { s with sprg := s.sprg.set 2 v }), (0x113#10, { s with sprg := s.sprg.set 3 v }),
        (0x114#10, { s with sprg := s.sprg.set 4 v }), (0x115#10, { s with sprg := s.sprg.set 5 v }),
        (0x116#10, { s with sprg := s.sprg.set 6 v }), (0x117#10, { s with sprg := s.sprg.set 7 v }),
        (0x11C#10, { s with tbl := v }), (0x11D#10, { s with tbu := v }), (0x11F#10, s), (0x3B0#10, { s with zpr := v }),
        (0x3B1#10, { s with pid := v &&& 0x000000FF }), (0x3B3#10, { s with ccr0 := v &&& 0x03F30F11 }),
        (0x3B4#10, { s with iac3 := v &&& 0xFFFFFFFC }), (0x3B5#10, { s with iac4 := v &&& 0xFFFFFFFC }),
        (0x3B6#10, { s with dvc1 := v }), (0x3B7#10, { s with dvc2 := v }), (0x3B9#10, { s with sgr := v }),
        (0x3BA#10, { s with dcwr := v }), (0x3BB#10, { s with sler := v }), (0x3BC#10, { s with su0r := v }),
        (0x3BD#10, { s with dbcr1 := v &&& 0xFFCFFF00 }), (0x3D3#10, s), (0x3D4#10, { s with esr := v &&& 0x8FCC8000 }),
        (0x3D5#10, { s with dear := v }), (0x3D6#10, { s with evpr := v &&& 0xFFFF0000 }), (0x3D8#10, { s with tsr := s.tsr &&& ~~~v }),
        (0x3DA#10, { s with tcr := (v &&& 0xFFC00000) ||| (s.tcr &&& 0x30000000) }), (0x3DB#10, { s with pit := v, pitReload := v }),
        (0x3DE#10, { s with srr2 := v &&& 0xFFFFFFFC }), (0x3DF#10, { s with srr3 := v }), (0x3F0#10, { s with dbsr := s.dbsr &&& ~~~v }),
        (0x3F4#10, { s with iac1 := v &&& 0xFFFFFFFC }), (0x3F5#10, { s with iac2 := v &&& 0xFFFFFFFC }),
        (0x3F6#10, { s with dac1 := v }), (0x3F7#10, { s with dac2 := v }), (0x3FA#10, { s with dccr := v }),
        (0x3FB#10, { s with iccr := v })] : List (BitVec 10 × State)), n = p.1 → RunsTo (.mtspr r n nr) s (leaves p.2)) ∧
    (n = 0x3F2 → v &&& 0x30000000 = 0 → RunsTo (.mtspr r n nr) s (leaves { s with dbcr0 := v &&& 0xFFFFC001 })) ∧
    (n.toNat ∉ writableSprs → RunsTo (.mtspr r n nr) s (leaves s))

/-- sc saves the next address and the MSR in SRR0 and SRR1, keeps CE, ME and DE of the MSR and goes to EVPR || 0x0C00; ESR, DEAR
and everything else stay (60_exceptions.md R643). pc is word aligned, as in every reachable state. -/
def Obligations.SystemCallEntry : Prop :=
  ∀ s : State, misaligned s.pc = false → RunsTo .sc s fun t => t = { s with
    srr0 := s.pc + 4, srr1 := s.msr, msr := s.msr &&& 0x00021200, pc := (s.evpr &&& 0xFFFF0000) ||| 0x0C00,
    entry := some .systemCall }

/-- tw and twi compare as signed and unsigned numbers under the TO bits. If no selected condition holds they only advance; else
they take Program with ESR[PTR], or with the trap debug event enabled in internal debug mode the Debug interrupt (MSR[DE] = 1)
or Program with DBSR[TIE, IDE] set (MSR[DE] = 0); external debug mode is refused (49_processor_management.md R575, R576, U6). The
clauses on internal debug mode are the model's choice beyond the spec's decision D18, which refuses there (log entry 9). -/
def Obligations.TrapsOnTheirCondition : Prop :=
  ∀ (s : State) (tcond : BitVec 5) (ra rb : Reg) (im : BitVec 16) (nr : Bool),
    let a := s.reg ra
    let holds (b : Word) : Prop := (tcond.getMsbD 0 = true ∧ a.toInt < b.toInt) ∨ (tcond.getMsbD 1 = true ∧ b.toInt < a.toInt) ∨
      (tcond.getMsbD 2 = true ∧ a = b) ∨ (tcond.getMsbD 3 = true ∧ a.toNat < b.toNat) ∨ (tcond.getMsbD 4 = true ∧ b.toNat < a.toNat)
    let traps (i : Instr) : Prop :=
      ((s.tdeBit = false ∨ (s.idmBit = false ∧ s.externalDebugMode = false)) →
        RunsTo i s fun t => Takes .program s.pc s t ∧ Syndrome 0x02000000 s t ∧ t.dear = s.dear ∧ t.dbsr = s.dbsr) ∧
      (s.tdeBit = true → s.idmBit = true → s.externalDebugMode = false → s.deBit = true →
        RunsTo i s fun t => Takes .debug s.pc s t ∧ t.dbsr = s.dbsr ||| 0x10000000 ∧ t.esr = s.esr ∧ t.dear = s.dear) ∧
      (s.tdeBit = true → s.idmBit = true → s.externalDebugMode = false → s.deBit = false →
        RunsTo i s fun t => Takes .program s.pc s t ∧ Syndrome 0x02000000 s t ∧ t.dbsr = s.dbsr ||| 0x10100000 ∧
          t.dear = s.dear) ∧
      (s.tdeBit = true → s.externalDebugMode = true → exec i s = .refused .externalDebug)
    (¬holds (s.reg rb) → RunsTo (.tw tcond ra rb nr) s (OnlyAdvances nr s)) ∧
    (holds (s.reg rb) → traps (.tw tcond ra rb nr)) ∧
    (¬holds (im.signExtend 32) → RunsTo (.twi tcond ra im) s (OnlyAdvances false s)) ∧
    (holds (im.signExtend 32) → traps (.twi tcond ra im))

/-! ## Privilege -/

/-- In problem state every privileged instruction, every move to or from a privileged SPR number and every DCR move takes Program
with ESR[PPR] and does nothing else (60_exceptions.md R621, R622, R640, 49_processor_management.md R570). -/
def Obligations.PrivilegedInstructionsTrap : Prop :=
  ∀ (s : State) (r ra rb : Reg) (ws : BitVec 5) (n : BitVec 10) (e nr : Bool), s.prBit = true →
    ∀ i : Instr, i ∈ ([.dcbi ra rb nr, .dccci ra rb nr, .dcread r ra rb nr, .iccci ra rb nr, .icread ra rb nr, .mfdcr r n nr,
        .mfmsr r nr, .mtdcr r n nr, .mtmsr r nr, .rfci nr, .rfi nr, .tlbia nr, .tlbre r ra ws nr, .tlbsx r ra rb e,
        .tlbsync nr, .tlbwe r ra ws nr, .wrtee r nr, .wrteei e nr] : List Instr) ∨
      (n.getLsbD 4 = true ∧ i ∈ ([.mfspr r n nr, .mtspr r n nr] : List Instr)) →
    RunsTo i s fun t => Takes .program s.pc s t ∧ Syndrome 0x04000000 s t ∧ t.dear = s.dear ∧ t.dbsr = s.dbsr

/-- No instruction run in problem state changes supervisor state, unless by taking an interrupt: what may differ are the general
registers, CR, XER, LR, CTR, USPRG0, storage, the reservation, pc, and what devices have seen (60_exceptions.md R620 to R622). -/
def Obligations.ProblemStateIsConfined : Prop :=
  ∀ (i : Instr) (s t : State), s.prBit = true → s.entry = none → exec i s = .next t → t.entry = none →
    t = { s with gpr := t.gpr, cr := t.cr, xer := t.xer, lr := t.lr, ctr := t.ctr, usprg0 := t.usprg0, mem := t.mem,
                 reserve := t.reserve, pc := t.pc, hostLog := t.hostLog, freeCount := t.freeCount }

/-- Only store-class instructions change storage, and only the bytes of their operand: dcbz those of its 32-byte block
(20_memory.md R130, R176, 47_cache_management.md R507). -/
def Obligations.OnlyStoresChangeStorage : Prop :=
  ∀ (i : Instr) (s t : State) (a : Nat), exec i s = .next t → Memory.read t.mem a ≠ Memory.read s.mem a →
    ∃ ea n, dataReference i s = some (true, ea, n) ∧
      ((∃ k, k < n ∧ a = (s.realData true (ea + BitVec.ofNat 32 k)).toNat) ∨
        (∃ ra rb nr, i = .dcbz ra rb nr) ∧ ∃ k, k < 32 ∧ a = (s.realData true ((ea &&& 0xFFFFFFE0) + BitVec.ofNat 32 k)).toNat)

/-! ## Interrupts, timers, reset, debug -/

/-- Every interrupt: its vector offset, its save pair, the MSR bits it keeps; nothing else changes (60_exceptions.md R603, R610
to R614, D4, D24). -/
def Obligations.InterruptEntryTable : Prop :=
  ∀ (s : State) (saved : Word), ∀ p ∈ ([(.criticalInput, 0x0100, true), (.machineCheckInstruction, 0x0200, true),
      (.machineCheckData, 0x0200, true), (.dataStorage, 0x0300, false), (.instructionStorage, 0x0400, false),
      (.external, 0x0500, false), (.alignment, 0x0600, false), (.program, 0x0700, false), (.fpuUnavailable, 0x0800, false),
      (.systemCall, 0x0C00, false), (.apuUnavailable, 0x0F20, false), (.intervalTimer, 0x1000, false),
      (.fixedTimer, 0x1010, false), (.watchdog, 0x1020, true), (.dataTlbMiss, 0x1100, false),
      (.instructionTlbMiss, 0x1200, false), (.debug, 0x2000, true)] : List (Interrupt × Word × Bool)),
    p.1.offset = p.2.1 ∧ p.1.critical = p.2.2 ∧ Takes p.1 saved s (takeInterrupt p.1 saved s) ∧
      SyndromeKept s (takeInterrupt p.1 saved s)

/-- One tick of the running timers without a watchdog reset: the time base counts modulo 2^64; the PIT counts down, and at 1
sets TSR[PIS] and reloads or stops; the FIT event sets TSR[FIS] (60_exceptions.md R660 to R662, R664, D25). The first clause is
the model's choice (log entry 31, beyond decision D18 by log entry 9): nothing changes while DBCR0[FT] = 1 with a debug event
recorded in DBSR, whatever DBCR0[IDM, EDM] and MSR[DWE] are; the spec says of FT only that it freezes the timers on a debug event
(R660, 10_state.md R90), and D18 that without a debug mode no event has any effect. -/
def Obligations.TimerTick : Prop :=
  ∀ s : State,
    (s.timersFrozen = true → tick s = s) ∧
    (s.timersFrozen = false → (WatchdogTimeout s → bitOf s.tsr 0 = false ∨ bitOf s.tsr 1 = false ∨ s.tcr &&& 0x30000000 = 0) →
      let t := tick s
      t.tbu.toNat * 2 ^ 32 + t.tbl.toNat = (s.tbu.toNat * 2 ^ 32 + s.tbl.toNat + 1) % 2 ^ 64 ∧
      t.pit = (if s.pit = 0 then 0 else if s.pit = 1 then (if bitOf s.tcr 9 then s.pitReload else 0) else s.pit - 1) ∧
      (bitOf t.tsr 4 = true ↔ bitOf s.tsr 4 = true ∨ s.pit = 1) ∧ (bitOf t.tsr 5 = true ↔ bitOf s.tsr 5 = true ∨ FitEvent s) ∧
      (∀ j, j = 2 ∨ j = 3 ∨ (6 ≤ j ∧ j < 32) → bitOf t.tsr j = bitOf s.tsr j) ∧
      t = { s with tbu := t.tbu, tbl := t.tbl, pit := t.pit, tsr := t.tsr })

/-- A watchdog time-out sets TSR[ENW], then TSR[WIS], then performs the reset TCR[WRC] selects, which leaves ENW and WIS 0 and the
other values of the reset table; without a time-out ENW and WIS stay (60_exceptions.md R663, 10_state.md R119). -/
def Obligations.WatchdogTimeouts : Prop :=
  ∀ s : State, s.timersFrozen = false →
    (¬WatchdogTimeout s → bitOf (tick s).tsr 0 = bitOf s.tsr 0 ∧ bitOf (tick s).tsr 1 = bitOf s.tsr 1) ∧
    (WatchdogTimeout s →
      (bitOf s.tsr 0 = false → bitOf (tick s).tsr 0 = true ∧ bitOf (tick s).tsr 1 = bitOf s.tsr 1) ∧
      (bitOf s.tsr 0 = true → bitOf s.tsr 1 = false → bitOf (tick s).tsr 0 = true ∧ bitOf (tick s).tsr 1 = true) ∧
      (bitOf s.tsr 0 = true → bitOf s.tsr 1 = true → s.tcr &&& 0x30000000 = 0 →
        bitOf (tick s).tsr 0 = true ∧ bitOf (tick s).tsr 1 = true) ∧
      (bitOf s.tsr 0 = true → bitOf s.tsr 1 = true → s.tcr &&& 0x30000000 ≠ 0 →
        AfterReset (s.tcr.extractLsb' 28 2) (s.tcr.extractLsb' 28 2) s (tick s)))

/-- A reset, by the host or by mtspr of a nonzero DBCR0[RST], leaves the registers as the reset table gives them and storage as
before, pc at the reset vector; the machine's first state has the same values and the vector 0xFFFFFFFC (70_reset_and_hazards.md
R701 to R704, 10_state.md R119, D1, D2). What the table leaves unspecified is free in a later reset; its values in the first state
are the model's (log entry 1) and not stated, but for one: the third clause says TSR[WRS] = 00 there, a zero of log entry 1, since
R119 says only "else unchanged"; R61 codes it as no watchdog reset. TSR[ENW, WIS] are 0 after these resets too by R61, R119 naming
the watchdog reset only (log entry 17). That a request comes before the ticks of its input, which are dropped, is the model's choice
(log entry 17). -/
def Obligations.ResetLeavesTheTable : Prop :=
  (∀ s : State, (∀ type, (s.inputs.headD HostInput.idle).reset = some type →
      ∃ t, step s = .next t ∧ AfterReset (match type with | .core => 1 | .chip => 2 | .system => 3)
        (s.tsr.extractLsb' 28 2) { s with inputs := s.inputs.tail } t)) ∧
  (∀ (s : State) (r : Reg) (nr : Bool), s.prBit = false → s.reg r &&& 0x30000000 ≠ 0 →
    RunsTo (.mtspr r 0x3F2 nr) s (AfterReset ((s.reg r).extractLsb' 28 2) (s.tsr.extractLsb' 28 2) s)) ∧
  AfterReset (State.reset.dbsr.extractLsb' 8 2) 0 State.reset State.reset ∧ State.reset.resetVector = 0xFFFFFFFC

/-- The instruction address compares in internal debug mode at the next instruction; w has the DBSR bits of those that hit, IAC1 to
IAC4 each by its own address or by the inclusive or exclusive range of its pair. With MSR[DE] = 1 a hit takes the Debug interrupt in
place of the instruction, with these bits set; with MSR[DE] = 0 they and DBSR[IDE] are set and the instruction goes on; without a
hit it goes on (60_exceptions.md R671, R676, 10_state.md R90, R93). The model goes beyond decision D18, which recognises no event, and
lets each enabled register of a pair report a hit of their range (log entry 9). The range toggles are refused (log entry 34). -/
def Obligations.AddressCompareInterrupts : Prop :=
  ∀ (s : State) (w : Word), s.inputs = [] → s.debugRefusal = none → s.idmBit = true → s.externalDebugMode = false →
    pendingInterrupts HostInput.idle { s with entry := none } = [] → s.weBit = false → BitsAre (IacHits s) w →
    (s.deBit = true → w ≠ 0 → ∃ t, step s = .next t ∧ Takes .debug s.pc { s with entry := none } t ∧ t.dbsr = s.dbsr ||| w ∧
      t.esr = s.esr ∧ t.dear = s.dear) ∧
    (s.deBit = false ∨ w = 0 → ∀ (bytes rest : List Byte) (i : Instr) (t : State), s.fetch = .ok bytes →
      decode bytes = .ok (i, rest) → s.dbcr0 &&& 0x0F000000 = 0 → s.dbcr1 &&& 0xF0000000 = 0 →
      exec i (State.afterFetch { s with entry := none, dbsr := s.dbsr ||| (if w = 0 then 0 else w ||| 0x00100000) }) = .next t →
      t.dbcr0 = s.dbcr0 → step s = .next t)

/-- The other debug events in internal debug mode, no instruction address compare being enabled. Before a branch that will be taken
BT, and in its place the Debug interrupt if MSR[DE] = 1; after an instruction that completes DR1, DW1, DR2 and DW2 for the data
address compares that an address it presents hits, by DAC1 or DAC2 in its size or by their inclusive or exclusive range, and IC if
MSR[DE] = 1; after a noncritical interrupt EDE. Each sets its DBSR bit, and IDE if MSR[DE] = 0. The unconditional event of the host
sets UDE. A recorded event interrupts at the next boundary with MSR[DE] = 1: an IA1 to IA4, EDE or UDE even before an enabled
critical input or watchdog interrupt, another one if neither is pending (60_exceptions.md R618, R671, R676, 10_state.md R90, R91,
R94). All of this goes beyond decision D18, which recognises no event (log entry 9). The model's choices: which addresses an
instruction presents, that the size fields do not apply to a range, that a compare with no byte enabled is one by address alone (log
entry 36), and that each enabled register of a range reports its hit (log entry 9). The value compares are in `DataValueCompares`. -/
def Obligations.DebugEvents : Prop :=
  ∀ s : State, s.idmBit = true → s.externalDebugMode = false → s.debugRefusal = none →
    let u : State := { s with inputs := s.inputs.tail, entry := none }
    -- the unconditional event
    (s.inputs.headD HostInput.idle = ⟨0, false, false, none, true⟩ →
      (s.deBit = true → ∃ t, step s = .next t ∧ Takes .debug s.pc u t ∧ t.dbsr = s.dbsr ||| 0x08000000 ∧ t.esr = s.esr ∧
        t.dear = s.dear) ∧
      (s.deBit = false → step s = step { s with inputs := HostInput.idle :: s.inputs.tail, dbsr := s.dbsr ||| 0x08100000 })) ∧
    -- a recorded event
    (∀ critical external : Bool, s.inputs.headD HostInput.idle = ⟨0, critical, external, none, false⟩ → s.deBit = true →
      s.dbsr &&& 0xFFFC0000 ≠ 0 →
      (s.dbsr &&& 0x2E0C0000 ≠ 0 ∨ s.ceBit = false ∨ (critical = false ∧ (bitOf s.tsr 1 = false ∨ bitOf s.tcr 4 = false))) →
      ∃ t, step s = .next t ∧ Takes .debug s.pc u t ∧ t.dbsr = s.dbsr ∧ t.esr = s.esr ∧ t.dear = s.dear) ∧
    -- the events of an instruction
    (s.inputs.headD HostInput.idle = HostInput.idle → pendingInterrupts HostInput.idle u = [] → s.weBit = false →
      s.dbcr0 &&& 0x00CC0000 = 0 → ∀ (bytes rest : List Byte) (i : Instr), u.fetch = .ok bytes → decode bytes = .ok (i, rest) →
      let v := u.afterFetch
      let ide (any : Bool) : Word := if any && !s.deBit then 0x00100000 else 0
      (bitOf s.dbcr0 5 = true → BranchesAway i v →
        (s.deBit = true → ∃ t, step s = .next t ∧ Takes .debug s.pc v t ∧ t.dbsr = s.dbsr ||| 0x40000000 ∧ t.esr = s.esr ∧
          t.dear = s.dear) ∧
        (s.deBit = false → ∀ t, exec i { v with dbsr := s.dbsr ||| 0x40100000 } = .next t → step s = .next t)) ∧
      (bitOf s.dbcr0 5 = false → ∀ t, exec i v = .next t → t.dbcr0 = s.dbcr0 → t.externalDebugMode = false →
        t.deBit = s.deBit →
        (t.entry = none → s.dbcr1 &&& 0x0000FF00 = 0 →
          let completion : Word := if bitOf s.dbcr0 4 && s.deBit then 0x80000000 else 0
          ∀ w, BitsAre (DacHits i v) w → step s = .next { t with dbsr := t.dbsr ||| w ||| completion ||| ide (w != 0) }) ∧
        (∀ k, t.entry = some k → k.critical = false → bitOf s.dbcr0 4 = false → s.dbcr1 &&& 0xF0000000 = 0 →
          bitOf s.dbcr0 6 = true → step s = .next { t with dbsr := t.dbsr ||| 0x20000000 ||| ide true })))

/-- A data value compare in internal debug mode, DVC1 with DAC1 or DVC2 with DAC2, for a scalar load or store of accessible bytes
whose first byte alone hits the address compare, in its size or its range, the other compare not being enabled for it. The access
hits only if the bytes it moves in the aligned word of that byte match DVC1 or DVC2 in the bytes DBCR1[DV1BE] or DBCR1[DV2BE]
enables: in mode 01 all, in mode 10 one, in mode 11 all those of a halfword that has one. A hit sets DBSR[DR1, DW1, DR2 or DW2] after
the instruction, and IDE if MSR[DE] = 0. With MSR[DE] = 1 the part of a misaligned access in the next word is not performed after a
hit of the first part (60_exceptions.md R671, R676, 10_state.md R91, R94, R95). All of this goes beyond decision D18 (log entry 9). The
model's choices (log entry 38): byte k of the value belongs to byte k of the word in storage, a byte that is not moved does not match,
and RT of a load that is cut short is free; the size fields do not apply to a range (log entry 36). -/
def Obligations.DataValueCompares : Prop :=
  ∀ s : State, s.idmBit = true → s.externalDebugMode = false → s.debugRefusal = none → Memory.wf s.mem = true →
    s.inputs.headD HostInput.idle = HostInput.idle →
    let u : State := { s with inputs := s.inputs.tail, entry := none }
    let v := u.afterFetch
    pendingInterrupts HostInput.idle u = [] → s.weBit = false → s.dbcr0 &&& 0x08CC0000 = 0 →
    ∀ (bytes rest : List Byte) (i : Instr) (r ra rb : Reg) (d : BitVec 16) (nr : Bool), u.fetch = .ok bytes →
      decode bytes = .ok (i, rest) → i ∈ scalarReferences r ra rb d nr →
    ∀ (store second : Bool) (ea : Word) (n : Nat) (t : State), dataReference i v = some (store, ea, n) →
      v.allAccessible store (byteAddresses ea n) = true → DacMatches s second store ea →
      (∀ k, 0 < k → k < n → (ea + BitVec.ofNat 32 k).toNat % 4 = 0 → ¬DacMatches s second store (ea + BitVec.ofNat 32 k)) →
      bitOf s.dbcr1 ((if store then 2 else 0) + (if second then 0 else 1)) = false → exec i v = .next t →
      let place (k : Nat) : Nat := (v.realData store (ea + BitVec.ofNat 32 k)).toNat
      let on (lane : Nat) : Prop := bitOf s.dbcr1 ((if second then 20 else 16) + lane) = true
      let same (lane : Nat) : Prop := ∃ k, k < n ∧ ea.toNat % 4 + k = lane ∧
        (Memory.read t.mem (place k)).toNat = byteOfNat 4 lane (if second then s.dvc2 else s.dvc1).toNat
      let half (h : Nat) : Prop := (on h ∨ on (h + 1)) ∧ (on h → same h) ∧ (on (h + 1) → same (h + 1))
      let hit (mode : Nat) : Prop :=
        (mode = 1 ∧ ∀ lane, lane < 4 → on lane → same lane) ∨ (mode = 2 ∧ ∃ lane, lane < 4 ∧ on lane ∧ same lane) ∨
        (mode = 3 ∧ (half 0 ∨ half 2))
      let mode := s.dbcr1.toNat / 2 ^ (if second then 16 else 18) % 4
      let events : Word := bitMask (dacStatusBit second store) ||| (if s.deBit then 0 else 0x00100000)
      mode ≠ 0 → (∃ lane, lane < 4 ∧ on lane) →
        (¬hit mode → step s = .next t) ∧
        (hit mode → ea.toNat % 4 + n ≤ 4 ∨ s.deBit = false → step s = .next { t with dbsr := t.dbsr ||| events }) ∧
        (hit mode → 4 < ea.toNat % 4 + n → s.deBit = true → ∃ t', step s = .next t' ∧
          (∀ k, k < n → 4 ≤ ea.toNat % 4 + k → Memory.read t'.mem (place k) = Memory.read s.mem (place k)) ∧
          (∀ a, (∀ k, k < n → 4 ≤ ea.toNat % 4 + k → a ≠ place k) → Memory.read t'.mem a = Memory.read t.mem a) ∧
          RegsKept (if store then [] else [r]) t t' ∧
          t' = { t with mem := t'.mem, gpr := t'.gpr, freeCount := t'.freeCount, dbsr := t.dbsr ||| events })
end

