-- ==== Sys2Proof/Laws/State.lean ====
section
/-! SUPPORT. One lemma per field per update of the state, so that no proof unfolds a record update. -/
set_option Elab.async false
namespace Sys2Proof.Laws
open Sys2Proof.Machine

/-! ## General registers -/

@[simp] theorem reg_setReg_same (s : State) (r : Reg) (v : Word) : (s.setReg r v).reg r = v := by
  simp [State.reg, State.setReg]

theorem reg_setReg_other (s : State) (r r' : Reg) (v : Word) (h : r' ≠ r) : (s.setReg r v).reg r' = s.reg r' := by
  have : r.toNat ≠ r'.toNat := fun e => h (BitVec.eq_of_toNat_eq e.symm)
  simp [State.reg, State.setReg, this]

theorem reg_setReg (s : State) (r r' : Reg) (v : Word) : (s.setReg r v).reg r' = if r' = r then v else s.reg r' := by
  split
  · rename_i h; subst h; simp
  · exact reg_setReg_other s r r' v ‹_›

theorem reg_congr (s t : State) (h : t.gpr = s.gpr) (r : Reg) : t.reg r = s.reg r := by simp [State.reg, h]

/-! ## setReg -/

@[simp] theorem setReg_pc (s : State) (r : Reg) (v : Word) : (s.setReg r v).pc = s.pc := rfl
@[simp] theorem setReg_cr (s : State) (r : Reg) (v : Word) : (s.setReg r v).cr = s.cr := rfl
@[simp] theorem setReg_xer (s : State) (r : Reg) (v : Word) : (s.setReg r v).xer = s.xer := rfl
@[simp] theorem setReg_lr (s : State) (r : Reg) (v : Word) : (s.setReg r v).lr = s.lr := rfl
@[simp] theorem setReg_ctr (s : State) (r : Reg) (v : Word) : (s.setReg r v).ctr = s.ctr := rfl
@[simp] theorem setReg_msr (s : State) (r : Reg) (v : Word) : (s.setReg r v).msr = s.msr := rfl
@[simp] theorem setReg_srr0 (s : State) (r : Reg) (v : Word) : (s.setReg r v).srr0 = s.srr0 := rfl
@[simp] theorem setReg_srr1 (s : State) (r : Reg) (v : Word) : (s.setReg r v).srr1 = s.srr1 := rfl
@[simp] theorem setReg_srr2 (s : State) (r : Reg) (v : Word) : (s.setReg r v).srr2 = s.srr2 := rfl
@[simp] theorem setReg_srr3 (s : State) (r : Reg) (v : Word) : (s.setReg r v).srr3 = s.srr3 := rfl
@[simp] theorem setReg_sprg (s : State) (r : Reg) (v : Word) : (s.setReg r v).sprg = s.sprg := rfl
@[simp] theorem setReg_usprg0 (s : State) (r : Reg) (v : Word) : (s.setReg r v).usprg0 = s.usprg0 := rfl
@[simp] theorem setReg_evpr (s : State) (r : Reg) (v : Word) : (s.setReg r v).evpr = s.evpr := rfl
@[simp] theorem setReg_esr (s : State) (r : Reg) (v : Word) : (s.setReg r v).esr = s.esr := rfl
@[simp] theorem setReg_dear (s : State) (r : Reg) (v : Word) : (s.setReg r v).dear = s.dear := rfl
@[simp] theorem setReg_tbu (s : State) (r : Reg) (v : Word) : (s.setReg r v).tbu = s.tbu := rfl
@[simp] theorem setReg_tbl (s : State) (r : Reg) (v : Word) : (s.setReg r v).tbl = s.tbl := rfl
@[simp] theorem setReg_pit (s : State) (r : Reg) (v : Word) : (s.setReg r v).pit = s.pit := rfl
@[simp] theorem setReg_pitReload (s : State) (r : Reg) (v : Word) : (s.setReg r v).pitReload = s.pitReload := rfl
@[simp] theorem setReg_tcr (s : State) (r : Reg) (v : Word) : (s.setReg r v).tcr = s.tcr := rfl
@[simp] theorem setReg_tsr (s : State) (r : Reg) (v : Word) : (s.setReg r v).tsr = s.tsr := rfl
@[simp] theorem setReg_pid (s : State) (r : Reg) (v : Word) : (s.setReg r v).pid = s.pid := rfl
@[simp] theorem setReg_zpr (s : State) (r : Reg) (v : Word) : (s.setReg r v).zpr = s.zpr := rfl
@[simp] theorem setReg_dccr (s : State) (r : Reg) (v : Word) : (s.setReg r v).dccr = s.dccr := rfl
@[simp] theorem setReg_iccr (s : State) (r : Reg) (v : Word) : (s.setReg r v).iccr = s.iccr := rfl
@[simp] theorem setReg_dcwr (s : State) (r : Reg) (v : Word) : (s.setReg r v).dcwr = s.dcwr := rfl
@[simp] theorem setReg_sgr (s : State) (r : Reg) (v : Word) : (s.setReg r v).sgr = s.sgr := rfl
@[simp] theorem setReg_sler (s : State) (r : Reg) (v : Word) : (s.setReg r v).sler = s.sler := rfl
@[simp] theorem setReg_su0r (s : State) (r : Reg) (v : Word) : (s.setReg r v).su0r = s.su0r := rfl
@[simp] theorem setReg_ccr0 (s : State) (r : Reg) (v : Word) : (s.setReg r v).ccr0 = s.ccr0 := rfl
@[simp] theorem setReg_icdbdr (s : State) (r : Reg) (v : Word) : (s.setReg r v).icdbdr = s.icdbdr := rfl
@[simp] theorem setReg_pvr (s : State) (r : Reg) (v : Word) : (s.setReg r v).pvr = s.pvr := rfl
@[simp] theorem setReg_dbcr0 (s : State) (r : Reg) (v : Word) : (s.setReg r v).dbcr0 = s.dbcr0 := rfl
@[simp] theorem setReg_dbcr1 (s : State) (r : Reg) (v : Word) : (s.setReg r v).dbcr1 = s.dbcr1 := rfl
@[simp] theorem setReg_dbsr (s : State) (r : Reg) (v : Word) : (s.setReg r v).dbsr = s.dbsr := rfl
@[simp] theorem setReg_iac1 (s : State) (r : Reg) (v : Word) : (s.setReg r v).iac1 = s.iac1 := rfl
@[simp] theorem setReg_iac2 (s : State) (r : Reg) (v : Word) : (s.setReg r v).iac2 = s.iac2 := rfl
@[simp] theorem setReg_iac3 (s : State) (r : Reg) (v : Word) : (s.setReg r v).iac3 = s.iac3 := rfl
@[simp] theorem setReg_iac4 (s : State) (r : Reg) (v : Word) : (s.setReg r v).iac4 = s.iac4 := rfl
@[simp] theorem setReg_dac1 (s : State) (r : Reg) (v : Word) : (s.setReg r v).dac1 = s.dac1 := rfl
@[simp] theorem setReg_dac2 (s : State) (r : Reg) (v : Word) : (s.setReg r v).dac2 = s.dac2 := rfl
@[simp] theorem setReg_dvc1 (s : State) (r : Reg) (v : Word) : (s.setReg r v).dvc1 = s.dvc1 := rfl
@[simp] theorem setReg_dvc2 (s : State) (r : Reg) (v : Word) : (s.setReg r v).dvc2 = s.dvc2 := rfl
@[simp] theorem setReg_reserve (s : State) (r : Reg) (v : Word) : (s.setReg r v).reserve = s.reserve := rfl
@[simp] theorem setReg_tlb (s : State) (r : Reg) (v : Word) : (s.setReg r v).tlb = s.tlb := rfl
@[simp] theorem setReg_mem (s : State) (r : Reg) (v : Word) : (s.setReg r v).mem = s.mem := rfl
@[simp] theorem setReg_dcrSpace (s : State) (r : Reg) (v : Word) : (s.setReg r v).dcrSpace = s.dcrSpace := rfl
@[simp] theorem setReg_memoryMap (s : State) (r : Reg) (v : Word) : (s.setReg r v).memoryMap = s.memoryMap := rfl
@[simp] theorem setReg_resetVector (s : State) (r : Reg) (v : Word) : (s.setReg r v).resetVector = s.resetVector := rfl
@[simp] theorem setReg_fpuPresent (s : State) (r : Reg) (v : Word) : (s.setReg r v).fpuPresent = s.fpuPresent := rfl
@[simp] theorem setReg_apuPresent (s : State) (r : Reg) (v : Word) : (s.setReg r v).apuPresent = s.apuPresent := rfl
@[simp] theorem setReg_inputs (s : State) (r : Reg) (v : Word) : (s.setReg r v).inputs = s.inputs := rfl
@[simp] theorem setReg_hostLog (s : State) (r : Reg) (v : Word) : (s.setReg r v).hostLog = s.hostLog := rfl
@[simp] theorem setReg_freeCount (s : State) (r : Reg) (v : Word) : (s.setReg r v).freeCount = s.freeCount := rfl
@[simp] theorem setReg_entry (s : State) (r : Reg) (v : Word) : (s.setReg r v).entry = s.entry := rfl

/-! ## advance -/

@[simp] theorem advance_pc (s : State) : (s.advance).pc = s.pc + 4 := rfl
@[simp] theorem advance_gpr (s : State) : (s.advance).gpr = s.gpr := rfl
@[simp] theorem advance_cr (s : State) : (s.advance).cr = s.cr := rfl
@[simp] theorem advance_xer (s : State) : (s.advance).xer = s.xer := rfl
@[simp] theorem advance_lr (s : State) : (s.advance).lr = s.lr := rfl
@[simp] theorem advance_ctr (s : State) : (s.advance).ctr = s.ctr := rfl
@[simp] theorem advance_msr (s : State) : (s.advance).msr = s.msr := rfl
@[simp] theorem advance_srr0 (s : State) : (s.advance).srr0 = s.srr0 := rfl
@[simp] theorem advance_srr1 (s : State) : (s.advance).srr1 = s.srr1 := rfl
@[simp] theorem advance_srr2 (s : State) : (s.advance).srr2 = s.srr2 := rfl
@[simp] theorem advance_srr3 (s : State) : (s.advance).srr3 = s.srr3 := rfl
@[simp] theorem advance_sprg (s : State) : (s.advance).sprg = s.sprg := rfl
@[simp] theorem advance_usprg0 (s : State) : (s.advance).usprg0 = s.usprg0 := rfl
@[simp] theorem advance_evpr (s : State) : (s.advance).evpr = s.evpr := rfl
@[simp] theorem advance_esr (s : State) : (s.advance).esr = s.esr := rfl
@[simp] theorem advance_dear (s : State) : (s.advance).dear = s.dear := rfl
@[simp] theorem advance_tbu (s : State) : (s.advance).tbu = s.tbu := rfl
@[simp] theorem advance_tbl (s : State) : (s.advance).tbl = s.tbl := rfl
@[simp] theorem advance_pit (s : State) : (s.advance).pit = s.pit := rfl
@[simp] theorem advance_pitReload (s : State) : (s.advance).pitReload = s.pitReload := rfl
@[simp] theorem advance_tcr (s : State) : (s.advance).tcr = s.tcr := rfl
@[simp] theorem advance_tsr (s : State) : (s.advance).tsr = s.tsr := rfl
@[simp] theorem advance_pid (s : State) : (s.advance).pid = s.pid := rfl
@[simp] theorem advance_zpr (s : State) : (s.advance).zpr = s.zpr := rfl
@[simp] theorem advance_dccr (s : State) : (s.advance).dccr = s.dccr := rfl
@[simp] theorem advance_iccr (s : State) : (s.advance).iccr = s.iccr := rfl
@[simp] theorem advance_dcwr (s : State) : (s.advance).dcwr = s.dcwr := rfl
@[simp] theorem advance_sgr (s : State) : (s.advance).sgr = s.sgr := rfl
@[simp] theorem advance_sler (s : State) : (s.advance).sler = s.sler := rfl
@[simp] theorem advance_su0r (s : State) : (s.advance).su0r = s.su0r := rfl
@[simp] theorem advance_ccr0 (s : State) : (s.advance).ccr0 = s.ccr0 := rfl
@[simp] theorem advance_icdbdr (s : State) : (s.advance).icdbdr = s.icdbdr := rfl
@[simp] theorem advance_pvr (s : State) : (s.advance).pvr = s.pvr := rfl
@[simp] theorem advance_dbcr0 (s : State) : (s.advance).dbcr0 = s.dbcr0 := rfl
@[simp] theorem advance_dbcr1 (s : State) : (s.advance).dbcr1 = s.dbcr1 := rfl
@[simp] theorem advance_dbsr (s : State) : (s.advance).dbsr = s.dbsr := rfl
@[simp] theorem advance_iac1 (s : State) : (s.advance).iac1 = s.iac1 := rfl
@[simp] theorem advance_iac2 (s : State) : (s.advance).iac2 = s.iac2 := rfl
@[simp] theorem advance_iac3 (s : State) : (s.advance).iac3 = s.iac3 := rfl
@[simp] theorem advance_iac4 (s : State) : (s.advance).iac4 = s.iac4 := rfl
@[simp] theorem advance_dac1 (s : State) : (s.advance).dac1 = s.dac1 := rfl
@[simp] theorem advance_dac2 (s : State) : (s.advance).dac2 = s.dac2 := rfl
@[simp] theorem advance_dvc1 (s : State) : (s.advance).dvc1 = s.dvc1 := rfl
@[simp] theorem advance_dvc2 (s : State) : (s.advance).dvc2 = s.dvc2 := rfl
@[simp] theorem advance_reserve (s : State) : (s.advance).reserve = s.reserve := rfl
@[simp] theorem advance_tlb (s : State) : (s.advance).tlb = s.tlb := rfl
@[simp] theorem advance_mem (s : State) : (s.advance).mem = s.mem := rfl
@[simp] theorem advance_dcrSpace (s : State) : (s.advance).dcrSpace = s.dcrSpace := rfl
@[simp] theorem advance_memoryMap (s : State) : (s.advance).memoryMap = s.memoryMap := rfl
@[simp] theorem advance_resetVector (s : State) : (s.advance).resetVector = s.resetVector := rfl
@[simp] theorem advance_fpuPresent (s : State) : (s.advance).fpuPresent = s.fpuPresent := rfl
@[simp] theorem advance_apuPresent (s : State) : (s.advance).apuPresent = s.apuPresent := rfl
@[simp] theorem advance_inputs (s : State) : (s.advance).inputs = s.inputs := rfl
@[simp] theorem advance_hostLog (s : State) : (s.advance).hostLog = s.hostLog := rfl
@[simp] theorem advance_freeCount (s : State) : (s.advance).freeCount = s.freeCount := rfl
@[simp] theorem advance_entry (s : State) : (s.advance).entry = s.entry := rfl
@[simp] theorem reg_advance (s : State) (q : Reg) : (s.advance).reg q = s.reg q := reg_congr _ _ (advance_gpr ..) q

/-! ## drawn -/

@[simp] theorem drawn_freeCount (s : State) (n : Nat) : (s.drawn n).freeCount = s.freeCount + n := rfl
@[simp] theorem drawn_gpr (s : State) (n : Nat) : (s.drawn n).gpr = s.gpr := rfl
@[simp] theorem drawn_pc (s : State) (n : Nat) : (s.drawn n).pc = s.pc := rfl
@[simp] theorem drawn_cr (s : State) (n : Nat) : (s.drawn n).cr = s.cr := rfl
@[simp] theorem drawn_xer (s : State) (n : Nat) : (s.drawn n).xer = s.xer := rfl
@[simp] theorem drawn_lr (s : State) (n : Nat) : (s.drawn n).lr = s.lr := rfl
@[simp] theorem drawn_ctr (s : State) (n : Nat) : (s.drawn n).ctr = s.ctr := rfl
@[simp] theorem drawn_msr (s : State) (n : Nat) : (s.drawn n).msr = s.msr := rfl
@[simp] theorem drawn_srr0 (s : State) (n : Nat) : (s.drawn n).srr0 = s.srr0 := rfl
@[simp] theorem drawn_srr1 (s : State) (n : Nat) : (s.drawn n).srr1 = s.srr1 := rfl
@[simp] theorem drawn_srr2 (s : State) (n : Nat) : (s.drawn n).srr2 = s.srr2 := rfl
@[simp] theorem drawn_srr3 (s : State) (n : Nat) : (s.drawn n).srr3 = s.srr3 := rfl
@[simp] theorem drawn_sprg (s : State) (n : Nat) : (s.drawn n).sprg = s.sprg := rfl
@[simp] theorem drawn_usprg0 (s : State) (n : Nat) : (s.drawn n).usprg0 = s.usprg0 := rfl
@[simp] theorem drawn_evpr (s : State) (n : Nat) : (s.drawn n).evpr = s.evpr := rfl
@[simp] theorem drawn_esr (s : State) (n : Nat) : (s.drawn n).esr = s.esr := rfl
@[simp] theorem drawn_dear (s : State) (n : Nat) : (s.drawn n).dear = s.dear := rfl
@[simp] theorem drawn_tbu (s : State) (n : Nat) : (s.drawn n).tbu = s.tbu := rfl
@[simp] theorem drawn_tbl (s : State) (n : Nat) : (s.drawn n).tbl = s.tbl := rfl
@[simp] theorem drawn_pit (s : State) (n : Nat) : (s.drawn n).pit = s.pit := rfl
@[simp] theorem drawn_pitReload (s : State) (n : Nat) : (s.drawn n).pitReload = s.pitReload := rfl
@[simp] theorem drawn_tcr (s : State) (n : Nat) : (s.drawn n).tcr = s.tcr := rfl
@[simp] theorem drawn_tsr (s : State) (n : Nat) : (s.drawn n).tsr = s.tsr := rfl
@[simp] theorem drawn_pid (s : State) (n : Nat) : (s.drawn n).pid = s.pid := rfl
@[simp] theorem drawn_zpr (s : State) (n : Nat) : (s.drawn n).zpr = s.zpr := rfl
@[simp] theorem drawn_dccr (s : State) (n : Nat) : (s.drawn n).dccr = s.dccr := rfl
@[simp] theorem drawn_iccr (s : State) (n : Nat) : (s.drawn n).iccr = s.iccr := rfl
@[simp] theorem drawn_dcwr (s : State) (n : Nat) : (s.drawn n).dcwr = s.dcwr := rfl
@[simp] theorem drawn_sgr (s : State) (n : Nat) : (s.drawn n).sgr = s.sgr := rfl
@[simp] theorem drawn_sler (s : State) (n : Nat) : (s.drawn n).sler = s.sler := rfl
@[simp] theorem drawn_su0r (s : State) (n : Nat) : (s.drawn n).su0r = s.su0r := rfl
@[simp] theorem drawn_ccr0 (s : State) (n : Nat) : (s.drawn n).ccr0 = s.ccr0 := rfl
@[simp] theorem drawn_icdbdr (s : State) (n : Nat) : (s.drawn n).icdbdr = s.icdbdr := rfl
@[simp] theorem drawn_pvr (s : State) (n : Nat) : (s.drawn n).pvr = s.pvr := rfl
@[simp] theorem drawn_dbcr0 (s : State) (n : Nat) : (s.drawn n).dbcr0 = s.dbcr0 := rfl
@[simp] theorem drawn_dbcr1 (s : State) (n : Nat) : (s.drawn n).dbcr1 = s.dbcr1 := rfl
@[simp] theorem drawn_dbsr (s : State) (n : Nat) : (s.drawn n).dbsr = s.dbsr := rfl
@[simp] theorem drawn_iac1 (s : State) (n : Nat) : (s.drawn n).iac1 = s.iac1 := rfl
@[simp] theorem drawn_iac2 (s : State) (n : Nat) : (s.drawn n).iac2 = s.iac2 := rfl
@[simp] theorem drawn_iac3 (s : State) (n : Nat) : (s.drawn n).iac3 = s.iac3 := rfl
@[simp] theorem drawn_iac4 (s : State) (n : Nat) : (s.drawn n).iac4 = s.iac4 := rfl
@[simp] theorem drawn_dac1 (s : State) (n : Nat) : (s.drawn n).dac1 = s.dac1 := rfl
@[simp] theorem drawn_dac2 (s : State) (n : Nat) : (s.drawn n).dac2 = s.dac2 := rfl
@[simp] theorem drawn_dvc1 (s : State) (n : Nat) : (s.drawn n).dvc1 = s.dvc1 := rfl
@[simp] theorem drawn_dvc2 (s : State) (n : Nat) : (s.drawn n).dvc2 = s.dvc2 := rfl
@[simp] theorem drawn_reserve (s : State) (n : Nat) : (s.drawn n).reserve = s.reserve := rfl
@[simp] theorem drawn_tlb (s : State) (n : Nat) : (s.drawn n).tlb = s.tlb := rfl
@[simp] theorem drawn_mem (s : State) (n : Nat) : (s.drawn n).mem = s.mem := rfl
@[simp] theorem drawn_dcrSpace (s : State) (n : Nat) : (s.drawn n).dcrSpace = s.dcrSpace := rfl
@[simp] theorem drawn_memoryMap (s : State) (n : Nat) : (s.drawn n).memoryMap = s.memoryMap := rfl
@[simp] theorem drawn_resetVector (s : State) (n : Nat) : (s.drawn n).resetVector = s.resetVector := rfl
@[simp] theorem drawn_fpuPresent (s : State) (n : Nat) : (s.drawn n).fpuPresent = s.fpuPresent := rfl
@[simp] theorem drawn_apuPresent (s : State) (n : Nat) : (s.drawn n).apuPresent = s.apuPresent := rfl
@[simp] theorem drawn_inputs (s : State) (n : Nat) : (s.drawn n).inputs = s.inputs := rfl
@[simp] theorem drawn_hostLog (s : State) (n : Nat) : (s.drawn n).hostLog = s.hostLog := rfl
@[simp] theorem drawn_entry (s : State) (n : Nat) : (s.drawn n).entry = s.entry := rfl
@[simp] theorem reg_drawn (s : State) (n : Nat) (q : Reg) : (s.drawn n).reg q = s.reg q := reg_congr _ _ (drawn_gpr ..) q

/-! ## markCr0 -/

@[simp] theorem markCr0_false (s : State) : s.markCr0 false = s := rfl
@[simp] theorem markCr0_gpr (s : State) (nr : Bool) : (s.markCr0 nr).gpr = s.gpr := by cases nr <;> rfl
@[simp] theorem markCr0_pc (s : State) (nr : Bool) : (s.markCr0 nr).pc = s.pc := by cases nr <;> rfl
@[simp] theorem markCr0_xer (s : State) (nr : Bool) : (s.markCr0 nr).xer = s.xer := by cases nr <;> rfl
@[simp] theorem markCr0_lr (s : State) (nr : Bool) : (s.markCr0 nr).lr = s.lr := by cases nr <;> rfl
@[simp] theorem markCr0_ctr (s : State) (nr : Bool) : (s.markCr0 nr).ctr = s.ctr := by cases nr <;> rfl
@[simp] theorem markCr0_msr (s : State) (nr : Bool) : (s.markCr0 nr).msr = s.msr := by cases nr <;> rfl
@[simp] theorem markCr0_srr0 (s : State) (nr : Bool) : (s.markCr0 nr).srr0 = s.srr0 := by cases nr <;> rfl
@[simp] theorem markCr0_srr1 (s : State) (nr : Bool) : (s.markCr0 nr).srr1 = s.srr1 := by cases nr <;> rfl
@[simp] theorem markCr0_srr2 (s : State) (nr : Bool) : (s.markCr0 nr).srr2 = s.srr2 := by cases nr <;> rfl
@[simp] theorem markCr0_srr3 (s : State) (nr : Bool) : (s.markCr0 nr).srr3 = s.srr3 := by cases nr <;> rfl
@[simp] theorem markCr0_sprg (s : State) (nr : Bool) : (s.markCr0 nr).sprg = s.sprg := by cases nr <;> rfl
@[simp] theorem markCr0_usprg0 (s : State) (nr : Bool) : (s.markCr0 nr).usprg0 = s.usprg0 := by cases nr <;> rfl
@[simp] theorem markCr0_evpr (s : State) (nr : Bool) : (s.markCr0 nr).evpr = s.evpr := by cases nr <;> rfl
@[simp] theorem markCr0_esr (s : State) (nr : Bool) : (s.markCr0 nr).esr = s.esr := by cases nr <;> rfl
@[simp] theorem markCr0_dear (s : State) (nr : Bool) : (s.markCr0 nr).dear = s.dear := by cases nr <;> rfl
@[simp] theorem markCr0_tbu (s : State) (nr : Bool) : (s.markCr0 nr).tbu = s.tbu := by cases nr <;> rfl
@[simp] theorem markCr0_tbl (s : State) (nr : Bool) : (s.markCr0 nr).tbl = s.tbl := by cases nr <;> rfl
@[simp] theorem markCr0_pit (s : State) (nr : Bool) : (s.markCr0 nr).pit = s.pit := by cases nr <;> rfl
@[simp] theorem markCr0_pitReload (s : State) (nr : Bool) : (s.markCr0 nr).pitReload = s.pitReload := by cases nr <;> rfl
@[simp] theorem markCr0_tcr (s : State) (nr : Bool) : (s.markCr0 nr).tcr = s.tcr := by cases nr <;> rfl
@[simp] theorem markCr0_tsr (s : State) (nr : Bool) : (s.markCr0 nr).tsr = s.tsr := by cases nr <;> rfl
@[simp] theorem markCr0_pid (s : State) (nr : Bool) : (s.markCr0 nr).pid = s.pid := by cases nr <;> rfl
@[simp] theorem markCr0_zpr (s : State) (nr : Bool) : (s.markCr0 nr).zpr = s.zpr := by cases nr <;> rfl
@[simp] theorem markCr0_dccr (s : State) (nr : Bool) : (s.markCr0 nr).dccr = s.dccr := by cases nr <;> rfl
@[simp] theorem markCr0_iccr (s : State) (nr : Bool) : (s.markCr0 nr).iccr = s.iccr := by cases nr <;> rfl
@[simp] theorem markCr0_dcwr (s : State) (nr : Bool) : (s.markCr0 nr).dcwr = s.dcwr := by cases nr <;> rfl
@[simp] theorem markCr0_sgr (s : State) (nr : Bool) : (s.markCr0 nr).sgr = s.sgr := by cases nr <;> rfl
@[simp] theorem markCr0_sler (s : State) (nr : Bool) : (s.markCr0 nr).sler = s.sler := by cases nr <;> rfl
@[simp] theorem markCr0_su0r (s : State) (nr : Bool) : (s.markCr0 nr).su0r = s.su0r := by cases nr <;> rfl
@[simp] theorem markCr0_ccr0 (s : State) (nr : Bool) : (s.markCr0 nr).ccr0 = s.ccr0 := by cases nr <;> rfl
@[simp] theorem markCr0_icdbdr (s : State) (nr : Bool) : (s.markCr0 nr).icdbdr = s.icdbdr := by cases nr <;> rfl
@[simp] theorem markCr0_pvr (s : State) (nr : Bool) : (s.markCr0 nr).pvr = s.pvr := by cases nr <;> rfl
@[simp] theorem markCr0_dbcr0 (s : State) (nr : Bool) : (s.markCr0 nr).dbcr0 = s.dbcr0 := by cases nr <;> rfl
@[simp] theorem markCr0_dbcr1 (s : State) (nr : Bool) : (s.markCr0 nr).dbcr1 = s.dbcr1 := by cases nr <;> rfl
@[simp] theorem markCr0_dbsr (s : State) (nr : Bool) : (s.markCr0 nr).dbsr = s.dbsr := by cases nr <;> rfl
@[simp] theorem markCr0_iac1 (s : State) (nr : Bool) : (s.markCr0 nr).iac1 = s.iac1 := by cases nr <;> rfl
@[simp] theorem markCr0_iac2 (s : State) (nr : Bool) : (s.markCr0 nr).iac2 = s.iac2 := by cases nr <;> rfl
@[simp] theorem markCr0_iac3 (s : State) (nr : Bool) : (s.markCr0 nr).iac3 = s.iac3 := by cases nr <;> rfl
@[simp] theorem markCr0_iac4 (s : State) (nr : Bool) : (s.markCr0 nr).iac4 = s.iac4 := by cases nr <;> rfl
@[simp] theorem markCr0_dac1 (s : State) (nr : Bool) : (s.markCr0 nr).dac1 = s.dac1 := by cases nr <;> rfl
@[simp] theorem markCr0_dac2 (s : State) (nr : Bool) : (s.markCr0 nr).dac2 = s.dac2 := by cases nr <;> rfl
@[simp] theorem markCr0_dvc1 (s : State) (nr : Bool) : (s.markCr0 nr).dvc1 = s.dvc1 := by cases nr <;> rfl
@[simp] theorem markCr0_dvc2 (s : State) (nr : Bool) : (s.markCr0 nr).dvc2 = s.dvc2 := by cases nr <;> rfl
@[simp] theorem markCr0_reserve (s : State) (nr : Bool) : (s.markCr0 nr).reserve = s.reserve := by cases nr <;> rfl
@[simp] theorem markCr0_tlb (s : State) (nr : Bool) : (s.markCr0 nr).tlb = s.tlb := by cases nr <;> rfl
@[simp] theorem markCr0_mem (s : State) (nr : Bool) : (s.markCr0 nr).mem = s.mem := by cases nr <;> rfl
@[simp] theorem markCr0_dcrSpace (s : State) (nr : Bool) : (s.markCr0 nr).dcrSpace = s.dcrSpace := by cases nr <;> rfl
@[simp] theorem markCr0_memoryMap (s : State) (nr : Bool) : (s.markCr0 nr).memoryMap = s.memoryMap := by cases nr <;> rfl
@[simp] theorem markCr0_resetVector (s : State) (nr : Bool) : (s.markCr0 nr).resetVector = s.resetVector := by cases nr <;> rfl
@[simp] theorem markCr0_fpuPresent (s : State) (nr : Bool) : (s.markCr0 nr).fpuPresent = s.fpuPresent := by cases nr <;> rfl
@[simp] theorem markCr0_apuPresent (s : State) (nr : Bool) : (s.markCr0 nr).apuPresent = s.apuPresent := by cases nr <;> rfl
@[simp] theorem markCr0_inputs (s : State) (nr : Bool) : (s.markCr0 nr).inputs = s.inputs := by cases nr <;> rfl
@[simp] theorem markCr0_hostLog (s : State) (nr : Bool) : (s.markCr0 nr).hostLog = s.hostLog := by cases nr <;> rfl
@[simp] theorem markCr0_entry (s : State) (nr : Bool) : (s.markCr0 nr).entry = s.entry := by cases nr <;> rfl
@[simp] theorem reg_markCr0 (s : State) (nr : Bool) (q : Reg) : (s.markCr0 nr).reg q = s.reg q := reg_congr _ _ (markCr0_gpr ..) q

/-! ## finish -/

@[simp] theorem finish_pc (s : State) (nr : Bool) : (s.finish nr).pc = s.pc + 4 := by cases nr <;> rfl
@[simp] theorem finish_false (s : State) : s.finish false = s.advance := rfl
@[simp] theorem finish_gpr (s : State) (nr : Bool) : (s.finish nr).gpr = s.gpr := by cases nr <;> rfl
@[simp] theorem finish_xer (s : State) (nr : Bool) : (s.finish nr).xer = s.xer := by cases nr <;> rfl
@[simp] theorem finish_lr (s : State) (nr : Bool) : (s.finish nr).lr = s.lr := by cases nr <;> rfl
@[simp] theorem finish_ctr (s : State) (nr : Bool) : (s.finish nr).ctr = s.ctr := by cases nr <;> rfl
@[simp] theorem finish_msr (s : State) (nr : Bool) : (s.finish nr).msr = s.msr := by cases nr <;> rfl
@[simp] theorem finish_srr0 (s : State) (nr : Bool) : (s.finish nr).srr0 = s.srr0 := by cases nr <;> rfl
@[simp] theorem finish_srr1 (s : State) (nr : Bool) : (s.finish nr).srr1 = s.srr1 := by cases nr <;> rfl
@[simp] theorem finish_srr2 (s : State) (nr : Bool) : (s.finish nr).srr2 = s.srr2 := by cases nr <;> rfl
@[simp] theorem finish_srr3 (s : State) (nr : Bool) : (s.finish nr).srr3 = s.srr3 := by cases nr <;> rfl
@[simp] theorem finish_sprg (s : State) (nr : Bool) : (s.finish nr).sprg = s.sprg := by cases nr <;> rfl
@[simp] theorem finish_usprg0 (s : State) (nr : Bool) : (s.finish nr).usprg0 = s.usprg0 := by cases nr <;> rfl
@[simp] theorem finish_evpr (s : State) (nr : Bool) : (s.finish nr).evpr = s.evpr := by cases nr <;> rfl
@[simp] theorem finish_esr (s : State) (nr : Bool) : (s.finish nr).esr = s.esr := by cases nr <;> rfl
@[simp] theorem finish_dear (s : State) (nr : Bool) : (s.finish nr).dear = s.dear := by cases nr <;> rfl
@[simp] theorem finish_tbu (s : State) (nr : Bool) : (s.finish nr).tbu = s.tbu := by cases nr <;> rfl
@[simp] theorem finish_tbl (s : State) (nr : Bool) : (s.finish nr).tbl = s.tbl := by cases nr <;> rfl
@[simp] theorem finish_pit (s : State) (nr : Bool) : (s.finish nr).pit = s.pit := by cases nr <;> rfl
@[simp] theorem finish_pitReload (s : State) (nr : Bool) : (s.finish nr).pitReload = s.pitReload := by cases nr <;> rfl
@[simp] theorem finish_tcr (s : State) (nr : Bool) : (s.finish nr).tcr = s.tcr := by cases nr <;> rfl
@[simp] theorem finish_tsr (s : State) (nr : Bool) : (s.finish nr).tsr = s.tsr := by cases nr <;> rfl
@[simp] theorem finish_pid (s : State) (nr : Bool) : (s.finish nr).pid = s.pid := by cases nr <;> rfl
@[simp] theorem finish_zpr (s : State) (nr : Bool) : (s.finish nr).zpr = s.zpr := by cases nr <;> rfl
@[simp] theorem finish_dccr (s : State) (nr : Bool) : (s.finish nr).dccr = s.dccr := by cases nr <;> rfl
@[simp] theorem finish_iccr (s : State) (nr : Bool) : (s.finish nr).iccr = s.iccr := by cases nr <;> rfl
@[simp] theorem finish_dcwr (s : State) (nr : Bool) : (s.finish nr).dcwr = s.dcwr := by cases nr <;> rfl
@[simp] theorem finish_sgr (s : State) (nr : Bool) : (s.finish nr).sgr = s.sgr := by cases nr <;> rfl
@[simp] theorem finish_sler (s : State) (nr : Bool) : (s.finish nr).sler = s.sler := by cases nr <;> rfl
@[simp] theorem finish_su0r (s : State) (nr : Bool) : (s.finish nr).su0r = s.su0r := by cases nr <;> rfl
@[simp] theorem finish_ccr0 (s : State) (nr : Bool) : (s.finish nr).ccr0 = s.ccr0 := by cases nr <;> rfl
@[simp] theorem finish_icdbdr (s : State) (nr : Bool) : (s.finish nr).icdbdr = s.icdbdr := by cases nr <;> rfl
@[simp] theorem finish_pvr (s : State) (nr : Bool) : (s.finish nr).pvr = s.pvr := by cases nr <;> rfl
@[simp] theorem finish_dbcr0 (s : State) (nr : Bool) : (s.finish nr).dbcr0 = s.dbcr0 := by cases nr <;> rfl
@[simp] theorem finish_dbcr1 (s : State) (nr : Bool) : (s.finish nr).dbcr1 = s.dbcr1 := by cases nr <;> rfl
@[simp] theorem finish_dbsr (s : State) (nr : Bool) : (s.finish nr).dbsr = s.dbsr := by cases nr <;> rfl
@[simp] theorem finish_iac1 (s : State) (nr : Bool) : (s.finish nr).iac1 = s.iac1 := by cases nr <;> rfl
@[simp] theorem finish_iac2 (s : State) (nr : Bool) : (s.finish nr).iac2 = s.iac2 := by cases nr <;> rfl
@[simp] theorem finish_iac3 (s : State) (nr : Bool) : (s.finish nr).iac3 = s.iac3 := by cases nr <;> rfl
@[simp] theorem finish_iac4 (s : State) (nr : Bool) : (s.finish nr).iac4 = s.iac4 := by cases nr <;> rfl
@[simp] theorem finish_dac1 (s : State) (nr : Bool) : (s.finish nr).dac1 = s.dac1 := by cases nr <;> rfl
@[simp] theorem finish_dac2 (s : State) (nr : Bool) : (s.finish nr).dac2 = s.dac2 := by cases nr <;> rfl
@[simp] theorem finish_dvc1 (s : State) (nr : Bool) : (s.finish nr).dvc1 = s.dvc1 := by cases nr <;> rfl
@[simp] theorem finish_dvc2 (s : State) (nr : Bool) : (s.finish nr).dvc2 = s.dvc2 := by cases nr <;> rfl
@[simp] theorem finish_reserve (s : State) (nr : Bool) : (s.finish nr).reserve = s.reserve := by cases nr <;> rfl
@[simp] theorem finish_tlb (s : State) (nr : Bool) : (s.finish nr).tlb = s.tlb := by cases nr <;> rfl
@[simp] theorem finish_mem (s : State) (nr : Bool) : (s.finish nr).mem = s.mem := by cases nr <;> rfl
@[simp] theorem finish_dcrSpace (s : State) (nr : Bool) : (s.finish nr).dcrSpace = s.dcrSpace := by cases nr <;> rfl
@[simp] theorem finish_memoryMap (s : State) (nr : Bool) : (s.finish nr).memoryMap = s.memoryMap := by cases nr <;> rfl
@[simp] theorem finish_resetVector (s : State) (nr : Bool) : (s.finish nr).resetVector = s.resetVector := by cases nr <;> rfl
@[simp] theorem finish_fpuPresent (s : State) (nr : Bool) : (s.finish nr).fpuPresent = s.fpuPresent := by cases nr <;> rfl
@[simp] theorem finish_apuPresent (s : State) (nr : Bool) : (s.finish nr).apuPresent = s.apuPresent := by cases nr <;> rfl
@[simp] theorem finish_inputs (s : State) (nr : Bool) : (s.finish nr).inputs = s.inputs := by cases nr <;> rfl
@[simp] theorem finish_hostLog (s : State) (nr : Bool) : (s.finish nr).hostLog = s.hostLog := by cases nr <;> rfl
@[simp] theorem finish_entry (s : State) (nr : Bool) : (s.finish nr).entry = s.entry := by cases nr <;> rfl
@[simp] theorem reg_finish (s : State) (nr : Bool) (q : Reg) : (s.finish nr).reg q = s.reg q := reg_congr _ _ (finish_gpr ..) q

/-! ## writeResult -/

@[simp] theorem writeResult_pc (s : State) (rt : Reg) (r : Word) (ca ov : Option Bool) (rc : Bool) :
    (s.writeResult rt r ca ov rc).pc = s.pc + 4 := rfl
@[simp] theorem writeResult_xer (s : State) (rt : Reg) (r : Word) (ca ov : Option Bool) (rc : Bool) :
    (s.writeResult rt r ca ov rc).xer = xerAfter s.xer ca ov := rfl
@[simp] theorem writeResult_cr (s : State) (rt : Reg) (r : Word) (ca ov : Option Bool) (rc : Bool) :
    (s.writeResult rt r ca ov rc).cr = crAfter s.cr rc r (xerAfter s.xer ca ov) := rfl
@[simp] theorem writeResult_gpr (s : State) (rt : Reg) (r : Word) (ca ov : Option Bool) (rc : Bool) :
    (s.writeResult rt r ca ov rc).gpr = (s.setReg rt r).gpr := rfl
@[simp] theorem writeResult_lr (s : State) (rt : Reg) (r : Word) (ca ov : Option Bool) (rc : Bool) : (s.writeResult rt r ca ov rc).lr = s.lr := rfl
@[simp] theorem writeResult_ctr (s : State) (rt : Reg) (r : Word) (ca ov : Option Bool) (rc : Bool) : (s.writeResult rt r ca ov rc).ctr = s.ctr := rfl
@[simp] theorem writeResult_msr (s : State) (rt : Reg) (r : Word) (ca ov : Option Bool) (rc : Bool) : (s.writeResult rt r ca ov rc).msr = s.msr := rfl
@[simp] theorem writeResult_srr0 (s : State) (rt : Reg) (r : Word) (ca ov : Option Bool) (rc : Bool) : (s.writeResult rt r ca ov rc).srr0 = s.srr0 := rfl
@[simp] theorem writeResult_srr1 (s : State) (rt : Reg) (r : Word) (ca ov : Option Bool) (rc : Bool) : (s.writeResult rt r ca ov rc).srr1 = s.srr1 := rfl
@[simp] theorem writeResult_srr2 (s : State) (rt : Reg) (r : Word) (ca ov : Option Bool) (rc : Bool) : (s.writeResult rt r ca ov rc).srr2 = s.srr2 := rfl
@[simp] theorem writeResult_srr3 (s : State) (rt : Reg) (r : Word) (ca ov : Option Bool) (rc : Bool) : (s.writeResult rt r ca ov rc).srr3 = s.srr3 := rfl
@[simp] theorem writeResult_sprg (s : State) (rt : Reg) (r : Word) (ca ov : Option Bool) (rc : Bool) : (s.writeResult rt r ca ov rc).sprg = s.sprg := rfl
@[simp] theorem writeResult_usprg0 (s : State) (rt : Reg) (r : Word) (ca ov : Option Bool) (rc : Bool) : (s.writeResult rt r ca ov rc).usprg0 = s.usprg0 := rfl
@[simp] theorem writeResult_evpr (s : State) (rt : Reg) (r : Word) (ca ov : Option Bool) (rc : Bool) : (s.writeResult rt r ca ov rc).evpr = s.evpr := rfl
@[simp] theorem writeResult_esr (s : State) (rt : Reg) (r : Word) (ca ov : Option Bool) (rc : Bool) : (s.writeResult rt r ca ov rc).esr = s.esr := rfl
@[simp] theorem writeResult_dear (s : State) (rt : Reg) (r : Word) (ca ov : Option Bool) (rc : Bool) : (s.writeResult rt r ca ov rc).dear = s.dear := rfl
@[simp] theorem writeResult_tbu (s : State) (rt : Reg) (r : Word) (ca ov : Option Bool) (rc : Bool) : (s.writeResult rt r ca ov rc).tbu = s.tbu := rfl
@[simp] theorem writeResult_tbl (s : State) (rt : Reg) (r : Word) (ca ov : Option Bool) (rc : Bool) : (s.writeResult rt r ca ov rc).tbl = s.tbl := rfl
@[simp] theorem writeResult_pit (s : State) (rt : Reg) (r : Word) (ca ov : Option Bool) (rc : Bool) : (s.writeResult rt r ca ov rc).pit = s.pit := rfl
@[simp] theorem writeResult_pitReload (s : State) (rt : Reg) (r : Word) (ca ov : Option Bool) (rc : Bool) : (s.writeResult rt r ca ov rc).pitReload = s.pitReload := rfl
@[simp] theorem writeResult_tcr (s : State) (rt : Reg) (r : Word) (ca ov : Option Bool) (rc : Bool) : (s.writeResult rt r ca ov rc).tcr = s.tcr := rfl
@[simp] theorem writeResult_tsr (s : State) (rt : Reg) (r : Word) (ca ov : Option Bool) (rc : Bool) : (s.writeResult rt r ca ov rc).tsr = s.tsr := rfl
@[simp] theorem writeResult_pid (s : State) (rt : Reg) (r : Word) (ca ov : Option Bool) (rc : Bool) : (s.writeResult rt r ca ov rc).pid = s.pid := rfl
@[simp] theorem writeResult_zpr (s : State) (rt : Reg) (r : Word) (ca ov : Option Bool) (rc : Bool) : (s.writeResult rt r ca ov rc).zpr = s.zpr := rfl
@[simp] theorem writeResult_dccr (s : State) (rt : Reg) (r : Word) (ca ov : Option Bool) (rc : Bool) : (s.writeResult rt r ca ov rc).dccr = s.dccr := rfl
@[simp] theorem writeResult_iccr (s : State) (rt : Reg) (r : Word) (ca ov : Option Bool) (rc : Bool) : (s.writeResult rt r ca ov rc).iccr = s.iccr := rfl
@[simp] theorem writeResult_dcwr (s : State) (rt : Reg) (r : Word) (ca ov : Option Bool) (rc : Bool) : (s.writeResult rt r ca ov rc).dcwr = s.dcwr := rfl
@[simp] theorem writeResult_sgr (s : State) (rt : Reg) (r : Word) (ca ov : Option Bool) (rc : Bool) : (s.writeResult rt r ca ov rc).sgr = s.sgr := rfl
@[simp] theorem writeResult_sler (s : State) (rt : Reg) (r : Word) (ca ov : Option Bool) (rc : Bool) : (s.writeResult rt r ca ov rc).sler = s.sler := rfl
@[simp] theorem writeResult_su0r (s : State) (rt : Reg) (r : Word) (ca ov : Option Bool) (rc : Bool) : (s.writeResult rt r ca ov rc).su0r = s.su0r := rfl
@[simp] theorem writeResult_ccr0 (s : State) (rt : Reg) (r : Word) (ca ov : Option Bool) (rc : Bool) : (s.writeResult rt r ca ov rc).ccr0 = s.ccr0 := rfl
@[simp] theorem writeResult_icdbdr (s : State) (rt : Reg) (r : Word) (ca ov : Option Bool) (rc : Bool) : (s.writeResult rt r ca ov rc).icdbdr = s.icdbdr := rfl
@[simp] theorem writeResult_pvr (s : State) (rt : Reg) (r : Word) (ca ov : Option Bool) (rc : Bool) : (s.writeResult rt r ca ov rc).pvr = s.pvr := rfl
@[simp] theorem writeResult_dbcr0 (s : State) (rt : Reg) (r : Word) (ca ov : Option Bool) (rc : Bool) : (s.writeResult rt r ca ov rc).dbcr0 = s.dbcr0 := rfl
@[simp] theorem writeResult_dbcr1 (s : State) (rt : Reg) (r : Word) (ca ov : Option Bool) (rc : Bool) : (s.writeResult rt r ca ov rc).dbcr1 = s.dbcr1 := rfl
@[simp] theorem writeResult_dbsr (s : State) (rt : Reg) (r : Word) (ca ov : Option Bool) (rc : Bool) : (s.writeResult rt r ca ov rc).dbsr = s.dbsr := rfl
@[simp] theorem writeResult_iac1 (s : State) (rt : Reg) (r : Word) (ca ov : Option Bool) (rc : Bool) : (s.writeResult rt r ca ov rc).iac1 = s.iac1 := rfl
@[simp] theorem writeResult_iac2 (s : State) (rt : Reg) (r : Word) (ca ov : Option Bool) (rc : Bool) : (s.writeResult rt r ca ov rc).iac2 = s.iac2 := rfl
@[simp] theorem writeResult_iac3 (s : State) (rt : Reg) (r : Word) (ca ov : Option Bool) (rc : Bool) : (s.writeResult rt r ca ov rc).iac3 = s.iac3 := rfl
@[simp] theorem writeResult_iac4 (s : State) (rt : Reg) (r : Word) (ca ov : Option Bool) (rc : Bool) : (s.writeResult rt r ca ov rc).iac4 = s.iac4 := rfl
@[simp] theorem writeResult_dac1 (s : State) (rt : Reg) (r : Word) (ca ov : Option Bool) (rc : Bool) : (s.writeResult rt r ca ov rc).dac1 = s.dac1 := rfl
@[simp] theorem writeResult_dac2 (s : State) (rt : Reg) (r : Word) (ca ov : Option Bool) (rc : Bool) : (s.writeResult rt r ca ov rc).dac2 = s.dac2 := rfl
@[simp] theorem writeResult_dvc1 (s : State) (rt : Reg) (r : Word) (ca ov : Option Bool) (rc : Bool) : (s.writeResult rt r ca ov rc).dvc1 = s.dvc1 := rfl
@[simp] theorem writeResult_dvc2 (s : State) (rt : Reg) (r : Word) (ca ov : Option Bool) (rc : Bool) : (s.writeResult rt r ca ov rc).dvc2 = s.dvc2 := rfl
@[simp] theorem writeResult_reserve (s : State) (rt : Reg) (r : Word) (ca ov : Option Bool) (rc : Bool) : (s.writeResult rt r ca ov rc).reserve = s.reserve := rfl
@[simp] theorem writeResult_tlb (s : State) (rt : Reg) (r : Word) (ca ov : Option Bool) (rc : Bool) : (s.writeResult rt r ca ov rc).tlb = s.tlb := rfl
@[simp] theorem writeResult_mem (s : State) (rt : Reg) (r : Word) (ca ov : Option Bool) (rc : Bool) : (s.writeResult rt r ca ov rc).mem = s.mem := rfl
@[simp] theorem writeResult_dcrSpace (s : State) (rt : Reg) (r : Word) (ca ov : Option Bool) (rc : Bool) : (s.writeResult rt r ca ov rc).dcrSpace = s.dcrSpace := rfl
@[simp] theorem writeResult_memoryMap (s : State) (rt : Reg) (r : Word) (ca ov : Option Bool) (rc : Bool) : (s.writeResult rt r ca ov rc).memoryMap = s.memoryMap := rfl
@[simp] theorem writeResult_resetVector (s : State) (rt : Reg) (r : Word) (ca ov : Option Bool) (rc : Bool) : (s.writeResult rt r ca ov rc).resetVector = s.resetVector := rfl
@[simp] theorem writeResult_fpuPresent (s : State) (rt : Reg) (r : Word) (ca ov : Option Bool) (rc : Bool) : (s.writeResult rt r ca ov rc).fpuPresent = s.fpuPresent := rfl
@[simp] theorem writeResult_apuPresent (s : State) (rt : Reg) (r : Word) (ca ov : Option Bool) (rc : Bool) : (s.writeResult rt r ca ov rc).apuPresent = s.apuPresent := rfl
@[simp] theorem writeResult_inputs (s : State) (rt : Reg) (r : Word) (ca ov : Option Bool) (rc : Bool) : (s.writeResult rt r ca ov rc).inputs = s.inputs := rfl
@[simp] theorem writeResult_hostLog (s : State) (rt : Reg) (r : Word) (ca ov : Option Bool) (rc : Bool) : (s.writeResult rt r ca ov rc).hostLog = s.hostLog := rfl
@[simp] theorem writeResult_freeCount (s : State) (rt : Reg) (r : Word) (ca ov : Option Bool) (rc : Bool) : (s.writeResult rt r ca ov rc).freeCount = s.freeCount := rfl
@[simp] theorem writeResult_entry (s : State) (rt : Reg) (r : Word) (ca ov : Option Bool) (rc : Bool) : (s.writeResult rt r ca ov rc).entry = s.entry := rfl

/-! ## takeInterrupt -/

@[simp] theorem takeInterrupt_pc (s : State) (k : Interrupt) (a : Word) : (takeInterrupt k a s).pc = s.vector k := by
  unfold takeInterrupt; split <;> rfl
@[simp] theorem takeInterrupt_msr (s : State) (k : Interrupt) (a : Word) : (takeInterrupt k a s).msr = s.msr &&& k.msrKept := by
  unfold takeInterrupt; split <;> rfl
@[simp] theorem takeInterrupt_entry (s : State) (k : Interrupt) (a : Word) : (takeInterrupt k a s).entry = some k := by
  unfold takeInterrupt; split <;> rfl
@[simp] theorem takeInterrupt_gpr (s : State) (k : Interrupt) (a : Word) : (takeInterrupt k a s).gpr = s.gpr := by unfold takeInterrupt; split <;> rfl
@[simp] theorem takeInterrupt_cr (s : State) (k : Interrupt) (a : Word) : (takeInterrupt k a s).cr = s.cr := by unfold takeInterrupt; split <;> rfl
@[simp] theorem takeInterrupt_xer (s : State) (k : Interrupt) (a : Word) : (takeInterrupt k a s).xer = s.xer := by unfold takeInterrupt; split <;> rfl
@[simp] theorem takeInterrupt_lr (s : State) (k : Interrupt) (a : Word) : (takeInterrupt k a s).lr = s.lr := by unfold takeInterrupt; split <;> rfl
@[simp] theorem takeInterrupt_ctr (s : State) (k : Interrupt) (a : Word) : (takeInterrupt k a s).ctr = s.ctr := by unfold takeInterrupt; split <;> rfl
@[simp] theorem takeInterrupt_sprg (s : State) (k : Interrupt) (a : Word) : (takeInterrupt k a s).sprg = s.sprg := by unfold takeInterrupt; split <;> rfl
@[simp] theorem takeInterrupt_usprg0 (s : State) (k : Interrupt) (a : Word) : (takeInterrupt k a s).usprg0 = s.usprg0 := by unfold takeInterrupt; split <;> rfl
@[simp] theorem takeInterrupt_evpr (s : State) (k : Interrupt) (a : Word) : (takeInterrupt k a s).evpr = s.evpr := by unfold takeInterrupt; split <;> rfl
@[simp] theorem takeInterrupt_esr (s : State) (k : Interrupt) (a : Word) : (takeInterrupt k a s).esr = s.esr := by unfold takeInterrupt; split <;> rfl
@[simp] theorem takeInterrupt_dear (s : State) (k : Interrupt) (a : Word) : (takeInterrupt k a s).dear = s.dear := by unfold takeInterrupt; split <;> rfl
@[simp] theorem takeInterrupt_tbu (s : State) (k : Interrupt) (a : Word) : (takeInterrupt k a s).tbu = s.tbu := by unfold takeInterrupt; split <;> rfl
@[simp] theorem takeInterrupt_tbl (s : State) (k : Interrupt) (a : Word) : (takeInterrupt k a s).tbl = s.tbl := by unfold takeInterrupt; split <;> rfl
@[simp] theorem takeInterrupt_pit (s : State) (k : Interrupt) (a : Word) : (takeInterrupt k a s).pit = s.pit := by unfold takeInterrupt; split <;> rfl
@[simp] theorem takeInterrupt_pitReload (s : State) (k : Interrupt) (a : Word) : (takeInterrupt k a s).pitReload = s.pitReload := by unfold takeInterrupt; split <;> rfl
@[simp] theorem takeInterrupt_tcr (s : State) (k : Interrupt) (a : Word) : (takeInterrupt k a s).tcr = s.tcr := by unfold takeInterrupt; split <;> rfl
@[simp] theorem takeInterrupt_tsr (s : State) (k : Interrupt) (a : Word) : (takeInterrupt k a s).tsr = s.tsr := by unfold takeInterrupt; split <;> rfl
@[simp] theorem takeInterrupt_pid (s : State) (k : Interrupt) (a : Word) : (takeInterrupt k a s).pid = s.pid := by unfold takeInterrupt; split <;> rfl
@[simp] theorem takeInterrupt_zpr (s : State) (k : Interrupt) (a : Word) : (takeInterrupt k a s).zpr = s.zpr := by unfold takeInterrupt; split <;> rfl
@[simp] theorem takeInterrupt_dccr (s : State) (k : Interrupt) (a : Word) : (takeInterrupt k a s).dccr = s.dccr := by unfold takeInterrupt; split <;> rfl
@[simp] theorem takeInterrupt_iccr (s : State) (k : Interrupt) (a : Word) : (takeInterrupt k a s).iccr = s.iccr := by unfold takeInterrupt; split <;> rfl
@[simp] theorem takeInterrupt_dcwr (s : State) (k : Interrupt) (a : Word) : (takeInterrupt k a s).dcwr = s.dcwr := by unfold takeInterrupt; split <;> rfl
@[simp] theorem takeInterrupt_sgr (s : State) (k : Interrupt) (a : Word) : (takeInterrupt k a s).sgr = s.sgr := by unfold takeInterrupt; split <;> rfl
@[simp] theorem takeInterrupt_sler (s : State) (k : Interrupt) (a : Word) : (takeInterrupt k a s).sler = s.sler := by unfold takeInterrupt; split <;> rfl
@[simp] theorem takeInterrupt_su0r (s : State) (k : Interrupt) (a : Word) : (takeInterrupt k a s).su0r = s.su0r := by unfold takeInterrupt; split <;> rfl
@[simp] theorem takeInterrupt_ccr0 (s : State) (k : Interrupt) (a : Word) : (takeInterrupt k a s).ccr0 = s.ccr0 := by unfold takeInterrupt; split <;> rfl
@[simp] theorem takeInterrupt_icdbdr (s : State) (k : Interrupt) (a : Word) : (takeInterrupt k a s).icdbdr = s.icdbdr := by unfold takeInterrupt; split <;> rfl
@[simp] theorem takeInterrupt_pvr (s : State) (k : Interrupt) (a : Word) : (takeInterrupt k a s).pvr = s.pvr := by unfold takeInterrupt; split <;> rfl
@[simp] theorem takeInterrupt_dbcr0 (s : State) (k : Interrupt) (a : Word) : (takeInterrupt k a s).dbcr0 = s.dbcr0 := by unfold takeInterrupt; split <;> rfl
@[simp] theorem takeInterrupt_dbcr1 (s : State) (k : Interrupt) (a : Word) : (takeInterrupt k a s).dbcr1 = s.dbcr1 := by unfold takeInterrupt; split <;> rfl
@[simp] theorem takeInterrupt_dbsr (s : State) (k : Interrupt) (a : Word) : (takeInterrupt k a s).dbsr = s.dbsr := by unfold takeInterrupt; split <;> rfl
@[simp] theorem takeInterrupt_iac1 (s : State) (k : Interrupt) (a : Word) : (takeInterrupt k a s).iac1 = s.iac1 := by unfold takeInterrupt; split <;> rfl
@[simp] theorem takeInterrupt_iac2 (s : State) (k : Interrupt) (a : Word) : (takeInterrupt k a s).iac2 = s.iac2 := by unfold takeInterrupt; split <;> rfl
@[simp] theorem takeInterrupt_iac3 (s : State) (k : Interrupt) (a : Word) : (takeInterrupt k a s).iac3 = s.iac3 := by unfold takeInterrupt; split <;> rfl
@[simp] theorem takeInterrupt_iac4 (s : State) (k : Interrupt) (a : Word) : (takeInterrupt k a s).iac4 = s.iac4 := by unfold takeInterrupt; split <;> rfl
@[simp] theorem takeInterrupt_dac1 (s : State) (k : Interrupt) (a : Word) : (takeInterrupt k a s).dac1 = s.dac1 := by unfold takeInterrupt; split <;> rfl
@[simp] theorem takeInterrupt_dac2 (s : State) (k : Interrupt) (a : Word) : (takeInterrupt k a s).dac2 = s.dac2 := by unfold takeInterrupt; split <;> rfl
@[simp] theorem takeInterrupt_dvc1 (s : State) (k : Interrupt) (a : Word) : (takeInterrupt k a s).dvc1 = s.dvc1 := by unfold takeInterrupt; split <;> rfl
@[simp] theorem takeInterrupt_dvc2 (s : State) (k : Interrupt) (a : Word) : (takeInterrupt k a s).dvc2 = s.dvc2 := by unfold takeInterrupt; split <;> rfl
@[simp] theorem takeInterrupt_reserve (s : State) (k : Interrupt) (a : Word) : (takeInterrupt k a s).reserve = s.reserve := by unfold takeInterrupt; split <;> rfl
@[simp] theorem takeInterrupt_tlb (s : State) (k : Interrupt) (a : Word) : (takeInterrupt k a s).tlb = s.tlb := by unfold takeInterrupt; split <;> rfl
@[simp] theorem takeInterrupt_mem (s : State) (k : Interrupt) (a : Word) : (takeInterrupt k a s).mem = s.mem := by unfold takeInterrupt; split <;> rfl
@[simp] theorem takeInterrupt_dcrSpace (s : State) (k : Interrupt) (a : Word) : (takeInterrupt k a s).dcrSpace = s.dcrSpace := by unfold takeInterrupt; split <;> rfl
@[simp] theorem takeInterrupt_memoryMap (s : State) (k : Interrupt) (a : Word) : (takeInterrupt k a s).memoryMap = s.memoryMap := by unfold takeInterrupt; split <;> rfl
@[simp] theorem takeInterrupt_resetVector (s : State) (k : Interrupt) (a : Word) : (takeInterrupt k a s).resetVector = s.resetVector := by unfold takeInterrupt; split <;> rfl
@[simp] theorem takeInterrupt_fpuPresent (s : State) (k : Interrupt) (a : Word) : (takeInterrupt k a s).fpuPresent = s.fpuPresent := by unfold takeInterrupt; split <;> rfl
@[simp] theorem takeInterrupt_apuPresent (s : State) (k : Interrupt) (a : Word) : (takeInterrupt k a s).apuPresent = s.apuPresent := by unfold takeInterrupt; split <;> rfl
@[simp] theorem takeInterrupt_inputs (s : State) (k : Interrupt) (a : Word) : (takeInterrupt k a s).inputs = s.inputs := by unfold takeInterrupt; split <;> rfl
@[simp] theorem takeInterrupt_hostLog (s : State) (k : Interrupt) (a : Word) : (takeInterrupt k a s).hostLog = s.hostLog := by unfold takeInterrupt; split <;> rfl
@[simp] theorem takeInterrupt_freeCount (s : State) (k : Interrupt) (a : Word) : (takeInterrupt k a s).freeCount = s.freeCount := by unfold takeInterrupt; split <;> rfl
@[simp] theorem reg_takeInterrupt (s : State) (k : Interrupt) (a : Word) (q : Reg) : (takeInterrupt k a s).reg q = s.reg q := reg_congr _ _ (takeInterrupt_gpr ..) q

/-! ## returnFromInterrupt -/

@[simp] theorem returnFromInterrupt_pc (s : State) (a b : Word) : (returnFromInterrupt a b s).pc = wordAligned a := rfl
@[simp] theorem returnFromInterrupt_msr (s : State) (a b : Word) : (returnFromInterrupt a b s).msr = b &&& msrMask := rfl
@[simp] theorem returnFromInterrupt_gpr (s : State) (a b : Word) : (returnFromInterrupt a b s).gpr = s.gpr := rfl
@[simp] theorem returnFromInterrupt_cr (s : State) (a b : Word) : (returnFromInterrupt a b s).cr = s.cr := rfl
@[simp] theorem returnFromInterrupt_xer (s : State) (a b : Word) : (returnFromInterrupt a b s).xer = s.xer := rfl
@[simp] theorem returnFromInterrupt_lr (s : State) (a b : Word) : (returnFromInterrupt a b s).lr = s.lr := rfl
@[simp] theorem returnFromInterrupt_ctr (s : State) (a b : Word) : (returnFromInterrupt a b s).ctr = s.ctr := rfl
@[simp] theorem returnFromInterrupt_srr0 (s : State) (a b : Word) : (returnFromInterrupt a b s).srr0 = s.srr0 := rfl
@[simp] theorem returnFromInterrupt_srr1 (s : State) (a b : Word) : (returnFromInterrupt a b s).srr1 = s.srr1 := rfl
@[simp] theorem returnFromInterrupt_srr2 (s : State) (a b : Word) : (returnFromInterrupt a b s).srr2 = s.srr2 := rfl
@[simp] theorem returnFromInterrupt_srr3 (s : State) (a b : Word) : (returnFromInterrupt a b s).srr3 = s.srr3 := rfl
@[simp] theorem returnFromInterrupt_sprg (s : State) (a b : Word) : (returnFromInterrupt a b s).sprg = s.sprg := rfl
@[simp] theorem returnFromInterrupt_usprg0 (s : State) (a b : Word) : (returnFromInterrupt a b s).usprg0 = s.usprg0 := rfl
@[simp] theorem returnFromInterrupt_evpr (s : State) (a b : Word) : (returnFromInterrupt a b s).evpr = s.evpr := rfl
@[simp] theorem returnFromInterrupt_esr (s : State) (a b : Word) : (returnFromInterrupt a b s).esr = s.esr := rfl
@[simp] theorem returnFromInterrupt_dear (s : State) (a b : Word) : (returnFromInterrupt a b s).dear = s.dear := rfl
@[simp] theorem returnFromInterrupt_tbu (s : State) (a b : Word) : (returnFromInterrupt a b s).tbu = s.tbu := rfl
@[simp] theorem returnFromInterrupt_tbl (s : State) (a b : Word) : (returnFromInterrupt a b s).tbl = s.tbl := rfl
@[simp] theorem returnFromInterrupt_pit (s : State) (a b : Word) : (returnFromInterrupt a b s).pit = s.pit := rfl
@[simp] theorem returnFromInterrupt_pitReload (s : State) (a b : Word) : (returnFromInterrupt a b s).pitReload = s.pitReload := rfl
@[simp] theorem returnFromInterrupt_tcr (s : State) (a b : Word) : (returnFromInterrupt a b s).tcr = s.tcr := rfl
@[simp] theorem returnFromInterrupt_tsr (s : State) (a b : Word) : (returnFromInterrupt a b s).tsr = s.tsr := rfl
@[simp] theorem returnFromInterrupt_pid (s : State) (a b : Word) : (returnFromInterrupt a b s).pid = s.pid := rfl
@[simp] theorem returnFromInterrupt_zpr (s : State) (a b : Word) : (returnFromInterrupt a b s).zpr = s.zpr := rfl
@[simp] theorem returnFromInterrupt_dccr (s : State) (a b : Word) : (returnFromInterrupt a b s).dccr = s.dccr := rfl
@[simp] theorem returnFromInterrupt_iccr (s : State) (a b : Word) : (returnFromInterrupt a b s).iccr = s.iccr := rfl
@[simp] theorem returnFromInterrupt_dcwr (s : State) (a b : Word) : (returnFromInterrupt a b s).dcwr = s.dcwr := rfl
@[simp] theorem returnFromInterrupt_sgr (s : State) (a b : Word) : (returnFromInterrupt a b s).sgr = s.sgr := rfl
@[simp] theorem returnFromInterrupt_sler (s : State) (a b : Word) : (returnFromInterrupt a b s).sler = s.sler := rfl
@[simp] theorem returnFromInterrupt_su0r (s : State) (a b : Word) : (returnFromInterrupt a b s).su0r = s.su0r := rfl
@[simp] theorem returnFromInterrupt_ccr0 (s : State) (a b : Word) : (returnFromInterrupt a b s).ccr0 = s.ccr0 := rfl
@[simp] theorem returnFromInterrupt_icdbdr (s : State) (a b : Word) : (returnFromInterrupt a b s).icdbdr = s.icdbdr := rfl
@[simp] theorem returnFromInterrupt_pvr (s : State) (a b : Word) : (returnFromInterrupt a b s).pvr = s.pvr := rfl
@[simp] theorem returnFromInterrupt_dbcr0 (s : State) (a b : Word) : (returnFromInterrupt a b s).dbcr0 = s.dbcr0 := rfl
@[simp] theorem returnFromInterrupt_dbcr1 (s : State) (a b : Word) : (returnFromInterrupt a b s).dbcr1 = s.dbcr1 := rfl
@[simp] theorem returnFromInterrupt_dbsr (s : State) (a b : Word) : (returnFromInterrupt a b s).dbsr = s.dbsr := rfl
@[simp] theorem returnFromInterrupt_iac1 (s : State) (a b : Word) : (returnFromInterrupt a b s).iac1 = s.iac1 := rfl
@[simp] theorem returnFromInterrupt_iac2 (s : State) (a b : Word) : (returnFromInterrupt a b s).iac2 = s.iac2 := rfl
@[simp] theorem returnFromInterrupt_iac3 (s : State) (a b : Word) : (returnFromInterrupt a b s).iac3 = s.iac3 := rfl
@[simp] theorem returnFromInterrupt_iac4 (s : State) (a b : Word) : (returnFromInterrupt a b s).iac4 = s.iac4 := rfl
@[simp] theorem returnFromInterrupt_dac1 (s : State) (a b : Word) : (returnFromInterrupt a b s).dac1 = s.dac1 := rfl
@[simp] theorem returnFromInterrupt_dac2 (s : State) (a b : Word) : (returnFromInterrupt a b s).dac2 = s.dac2 := rfl
@[simp] theorem returnFromInterrupt_dvc1 (s : State) (a b : Word) : (returnFromInterrupt a b s).dvc1 = s.dvc1 := rfl
@[simp] theorem returnFromInterrupt_dvc2 (s : State) (a b : Word) : (returnFromInterrupt a b s).dvc2 = s.dvc2 := rfl
@[simp] theorem returnFromInterrupt_reserve (s : State) (a b : Word) : (returnFromInterrupt a b s).reserve = s.reserve := rfl
@[simp] theorem returnFromInterrupt_tlb (s : State) (a b : Word) : (returnFromInterrupt a b s).tlb = s.tlb := rfl
@[simp] theorem returnFromInterrupt_mem (s : State) (a b : Word) : (returnFromInterrupt a b s).mem = s.mem := rfl
@[simp] theorem returnFromInterrupt_dcrSpace (s : State) (a b : Word) : (returnFromInterrupt a b s).dcrSpace = s.dcrSpace := rfl
@[simp] theorem returnFromInterrupt_memoryMap (s : State) (a b : Word) : (returnFromInterrupt a b s).memoryMap = s.memoryMap := rfl
@[simp] theorem returnFromInterrupt_resetVector (s : State) (a b : Word) : (returnFromInterrupt a b s).resetVector = s.resetVector := rfl
@[simp] theorem returnFromInterrupt_fpuPresent (s : State) (a b : Word) : (returnFromInterrupt a b s).fpuPresent = s.fpuPresent := rfl
@[simp] theorem returnFromInterrupt_apuPresent (s : State) (a b : Word) : (returnFromInterrupt a b s).apuPresent = s.apuPresent := rfl
@[simp] theorem returnFromInterrupt_inputs (s : State) (a b : Word) : (returnFromInterrupt a b s).inputs = s.inputs := rfl
@[simp] theorem returnFromInterrupt_hostLog (s : State) (a b : Word) : (returnFromInterrupt a b s).hostLog = s.hostLog := rfl
@[simp] theorem returnFromInterrupt_freeCount (s : State) (a b : Word) : (returnFromInterrupt a b s).freeCount = s.freeCount := rfl
@[simp] theorem returnFromInterrupt_entry (s : State) (a b : Word) : (returnFromInterrupt a b s).entry = s.entry := rfl
@[simp] theorem reg_returnFromInterrupt (s : State) (a b : Word) (q : Reg) : (returnFromInterrupt a b s).reg q = s.reg q := reg_congr _ _ (returnFromInterrupt_gpr ..) q

end Sys2Proof.Laws
end

