-- ==== Sys2Proof/Laws/Flags.lean ====
section
/-! SUPPORT. Bits of a word, CR fields, XER and the exact meaning of carry and overflow. -/
namespace Sys2Proof.Laws
open Sys2Proof.Machine

/-! ## Bits -/

theorem getLsbD_bitMask (i j : Nat) (hi : i < 32) (hj : j < 32) : (bitMask i).getLsbD j = decide (j = 31 - i) := by
  simp only [bitMask, BitVec.getLsbD_shiftLeft, BitVec.getLsbD_one]
  by_cases h : j = 31 - i
  · subst h; simp; omega
  · simp only [h, decide_false]
    by_cases h2 : j < 31 - i
    · simp [h2]
    · have : ¬(j - (31 - i) = 0) := by omega
      simp [this]

theorem bitOf_withBit (x : Word) (i j : Nat) (b : Bool) (hi : i < 32) (hj : j < 32) :
    bitOf (withBit x i b) j = if j = i then b else bitOf x j := by
  have h : (31 - j = 31 - i) ↔ j = i := by omega
  have h32 : 31 - j < 32 := by omega
  unfold bitOf withBit
  cases b <;>
    simp only [if_true, Bool.false_eq_true, if_false, BitVec.getLsbD_or, BitVec.getLsbD_and, BitVec.getLsbD_not,
      getLsbD_bitMask i (31 - j) hi h32, h, h32, decide_true, Bool.true_and] <;>
    by_cases hji : j = i <;> simp [hji]

theorem eq_of_bits {x y : Word} (h : ∀ i, i < 32 → bitOf x i = bitOf y i) : x = y := by
  apply BitVec.eq_of_getLsbD_eq
  intro i hi
  have := h (31 - i) (by omega)
  simpa [bitOf, show 31 - (31 - i) = i by omega] using this

theorem bitOf_and (x y : Word) (i : Nat) : bitOf (x &&& y) i = (bitOf x i && bitOf y i) := by simp [bitOf]
theorem bitOf_or (x y : Word) (i : Nat) : bitOf (x ||| y) i = (bitOf x i || bitOf y i) := by simp [bitOf]
theorem bitOf_xor (x y : Word) (i : Nat) : bitOf (x ^^^ y) i = (bitOf x i ^^ bitOf y i) := by simp [bitOf]
theorem bitOf_not (x : Word) (i : Nat) : bitOf (~~~x) i = !bitOf x i := by
  have : 31 - i < 32 := by omega
  simp [bitOf, this]

/-! ## CR fields -/

theorem getLsbD_withCrField (cr : Word) (k : BitVec 3) (v : BitVec 4) (j : Nat) (hj : j < 32) :
    (withCrField cr k v).getLsbD j =
      if crShift k ≤ j ∧ j < crShift k + 4 then v.getLsbD (j - crShift k) else cr.getLsbD j := by
  have hk : crShift k ≤ 28 := by unfold crShift; omega
  have hF : ∀ m, (0xF#32).getLsbD m = decide (m < 4) := by
    intro m
    by_cases hm : m < 32
    · have : ∀ m : Fin 32, (0xF#32).getLsbD m = decide (m.val < 4) := by decide
      exact this ⟨m, hm⟩
    · rw [BitVec.getLsbD_of_ge _ _ (by omega)]; simp; omega
  unfold withCrField
  simp only [BitVec.getLsbD_or, BitVec.getLsbD_and, BitVec.getLsbD_not, BitVec.getLsbD_shiftLeft, BitVec.getLsbD_setWidth, hF, hj]
  by_cases h1 : crShift k ≤ j
  · by_cases h2 : j < crShift k + 4
    · have : j - crShift k < 4 := by omega
      have h3 : j - crShift k < 32 := by omega
      simp [h1, h2, this, h3, show ¬ j < crShift k by omega]
    · have : ¬ j - crShift k < 4 := by omega
      simp [h1, h2, this, show ¬ j < crShift k by omega, BitVec.getLsbD_of_ge v _ (show 4 ≤ j - crShift k by omega)]
  · simp [h1, show j < crShift k by omega]

theorem crField_withCrField (cr : Word) (k j : BitVec 3) (v : BitVec 4) :
    crField (withCrField cr k v) j = if j = k then v else crField cr j := by
  have hk : crShift k ≤ 28 := by unfold crShift; omega
  have hj : crShift j ≤ 28 := by unfold crShift; omega
  apply BitVec.eq_of_getLsbD_eq
  intro i hi
  simp only [crField, BitVec.getLsbD_extractLsb', hi, decide_true, Bool.true_and]
  rw [getLsbD_withCrField _ _ _ _ (by omega)]
  by_cases h : j = k
  · subst h
    rw [if_pos (by omega), if_pos rfl, show crShift j + i - crShift j = i by omega]
  · rw [if_neg h, if_neg]
    · simp only [BitVec.getLsbD_extractLsb', hi, decide_true, Bool.true_and]
    · have hne : j.toNat ≠ k.toNat := fun e => h (BitVec.eq_of_toNat_eq e)
      unfold crShift
      omega

/-- CR bit 4 k + b is bit b of field k. -/
theorem bitOf_crField (cr : Word) (k : BitVec 3) (b : Nat) (hb : b < 4) :
    bitOf cr (4 * k.toNat + b) = (crField cr k).getMsbD b := by
  have : 4 - 1 - b < 4 := by omega
  simp only [bitOf, crField, crShift, BitVec.getMsbD, BitVec.getLsbD_extractLsb', hb, this, decide_true, Bool.true_and]
  congr 1
  omega

theorem getMsbD_fourBits (lt gt eq so : Bool) :
    (fourBits lt gt eq so).getMsbD 0 = lt ∧ (fourBits lt gt eq so).getMsbD 1 = gt ∧ (fourBits lt gt eq so).getMsbD 2 = eq ∧
    (fourBits lt gt eq so).getMsbD 3 = so := by
  cases lt <;> cases gt <;> cases eq <;> cases so <;> decide

theorem crBit_of_field0 (cr : Word) (b : BitVec 5) (hb : b.toNat < 4) : crBit cr b = (crField cr 0).getMsbD b.toNat := by
  have := bitOf_crField cr 0 b.toNat hb
  simpa [crBit] using this

theorem slt_zero (r : Word) : r.slt 0 = decide (r.toInt < 0) := by simp [BitVec.slt]
theorem zero_slt (r : Word) : BitVec.slt 0 r = decide (0 < r.toInt) := by simp [BitVec.slt]
theorem beq_zero (r : Word) : (r == 0) = decide (r.toInt = 0) := by
  have : r = 0 ↔ r.toInt = 0 := ⟨fun h => by subst h; rfl, fun h => by apply BitVec.eq_of_toInt_eq; simpa using h⟩
  rw [beq_eq_decide, decide_eq_decide]; exact this

/-- What a record form does to CR. -/
theorem cr0Records_withCrField (s t : State) (r : Word) (h : t.cr = withCrField s.cr 0 (recordBits r t.xer)) :
    Cr0Records r s t := by
  have hf : crField t.cr 0 = recordBits r t.xer := by rw [h, crField_withCrField]; simp
  obtain ⟨h0, h1, h2, h3⟩ := getMsbD_fourBits (r.slt 0) (BitVec.slt 0 r) (r == 0) (xerSo t.xer)
  refine ⟨fun k hk => by rw [h, crField_withCrField, if_neg hk], ?_, ?_, ?_, ?_⟩
  · rw [crBit_of_field0 _ _ (by decide), hf, ← slt_zero]; exact h0
  · rw [crBit_of_field0 _ _ (by decide), hf, ← zero_slt]; exact h1
  · rw [crBit_of_field0 _ _ (by decide), hf, ← beq_zero]; exact h2
  · rw [crBit_of_field0 _ _ (by decide), hf]; exact h3

/-! ## XER -/

theorem low_withBit (i : Nat) (x : Word) (b : Bool) (hi : i < 3) : withBit x i b &&& 0x1FFFFFFF#32 = x &&& 0x1FFFFFFF#32 := by
  have : bitMask i &&& 0x1FFFFFFF#32 = 0 := by
    rcases i with _ | _ | _ | i <;> first | decide | omega
  have h2 : ~~~bitMask i &&& 0x1FFFFFFF#32 = 0x1FFFFFFF#32 := by
    rcases i with _ | _ | _ | i <;> first | decide | omega
  unfold withBit
  cases b
  · simp only [Bool.false_eq_true, if_false]; rw [BitVec.and_assoc, h2]
  · simp only [if_true]
    rw [show (x ||| bitMask i) &&& 0x1FFFFFFF#32 = (x &&& 0x1FFFFFFF#32) ||| (bitMask i &&& 0x1FFFFFFF#32) by
      apply BitVec.eq_of_getLsbD_eq; intro j hj; simp [Bool.and_or_distrib_right], this]
    simp

theorem xerBecomes (s t : State) (ca ov : Option Bool) (h : t.xer = xerAfter s.xer ca ov) : XerBecomes ca ov s t := by
  unfold XerBecomes
  rw [h]
  rcases ca with _ | c <;> rcases ov with _ | o <;> (try cases o) <;>
    simp only [xerAfter, withOv, withCa, Option.getD, if_true, Bool.false_eq_true, if_false] <;>
    refine ⟨?_, ?_, ?_, ?_⟩ <;>
    simp [xerCa, xerOv, xerSo, bitOf_withBit, low_withBit 0, low_withBit 1, low_withBit 2]

/-! ## Carry and overflow -/

theorem bitWord_toNat (c : Bool) : (bitWord c).toNat = bitNat c := by cases c <;> rfl

/-- The result of an addition of three, as a number. -/
theorem add3_toNat (a b : Word) (c : Bool) : (a + b + bitWord c).toNat = (a.toNat + b.toNat + bitNat c) % 2 ^ 32 := by
  simp [BitVec.toNat_add, bitWord_toNat]

theorem msb_iff_toInt (x : Word) : x.msb = decide (x.toInt < 0) := by
  rw [BitVec.msb_eq_toInt]

/-- ovf_add says that the exact sum leaves the signed range. -/
theorem ovfAdd_eq (a b : Word) (c : Bool) :
    ovfAdd a b (a + b + bitWord c) = outsideSigned (a.toInt + b.toInt + bitNat c) := by
  have hr : (a + b + bitWord c).toInt = (a.toInt + b.toInt + bitNat c).bmod (2 ^ 32) := by
    rw [BitVec.toInt_add, BitVec.toInt_add]
    cases c <;> simp [bitWord, bitNat]
  have ha := BitVec.toInt_lt (x := a); have ha' := BitVec.le_toInt (x := a)
  have hb := BitVec.toInt_lt (x := b); have hb' := BitVec.le_toInt (x := b)
  have hc : bitNat c = 0 ∨ bitNat c = 1 := by cases c <;> simp [bitNat]
  simp only [ovfAdd, msb_iff_toInt, hr, outsideSigned]
  generalize a.toInt = x at *; generalize b.toInt = y at *; generalize bitNat c = z at *
  have hb : (x + y + ↑z).bmod (2 ^ 32) = x + y + z ∨ (x + y + ↑z).bmod (2 ^ 32) = x + y + z - 2 ^ 32 ∧ 2 ^ 31 ≤ x + y + z
      ∨ (x + y + ↑z).bmod (2 ^ 32) = x + y + z + 2 ^ 32 ∧ x + y + z < -2 ^ 31 := by
    rw [Int.bmod_def]; omega
  have hb2 : -2 ^ 31 ≤ (x + y + ↑z).bmod (2 ^ 32) ∧ (x + y + ↑z).bmod (2 ^ 32) < 2 ^ 31 := by
    rw [Int.bmod_def]; omega
  generalize (x + y + ↑z).bmod (2 ^ 32) = w at *
  rw [Bool.eq_iff_iff]
  simp only [Bool.and_eq_true, Bool.or_eq_true, decide_eq_true_eq, beq_iff_eq, bne_iff_ne, ne_eq, decide_eq_decide]
  omega

end Sys2Proof.Laws
end

