-- ==== Sys2Proof/Laws/Debug.lean ====
section
/-! SUPPORT. What the debug compares hit, in the exact terms of Sys2Proof/Safety.lean (60_exceptions.md R671). -/
namespace Sys2Proof.Laws
open Sys2Proof.Machine

/-! ## Words by their bits -/

theorem bitOf_mask {c : Prop} [Decidable c] {k j : Nat} (hk : k < 32) (hj : j < 32) :
    bitOf (if c then bitMask k else 0) j = true ↔ j = k ∧ c := by
  by_cases hc : c
  · simp only [hc, if_true, and_true, bitOf, bitMask, BitVec.getLsbD_shiftLeft, BitVec.getLsbD_one, Bool.and_eq_true,
      decide_eq_true_eq, Bool.not_eq_true', decide_eq_false_iff_not]
    omega
  · simp [bitOf, hc]

/-- A word is determined by its bits. -/
theorem bitsAre_unique {P : Nat → Prop} {w w' : Word} (h : BitsAre P w) (h' : BitsAre P w') : w = w' := by
  apply BitVec.eq_of_getLsbD_eq
  intro i hi
  have h1 := h (31 - i) (by omega)
  have h2 := h' (31 - i) (by omega)
  rw [bitOf, show 31 - (31 - i) = i by omega] at h1 h2
  rw [Bool.eq_iff_iff, h1, h2]

/-! ## Instruction address compares -/

theorem inRange_iff (x : Bool) (lo hi a : Word) : inRange x lo hi a = true ↔ InCompareRange x lo hi a := by
  cases x <;> simp [inRange, InCompareRange, BitVec.ule, BitVec.ult]

/-- `iacEvents` has exactly the bits of the instruction address compares that hit. -/
theorem iacEvents_bits (s : State) : BitsAre (IacHits s) s.iacEvents := by
  intro j hj
  simp only [State.iacEvents, bitOf_or, Bool.or_eq_true, bitOf_mask (show 5 < 32 by omega) hj, bitOf_mask (show 6 < 32 by omega) hj,
    bitOf_mask (show 12 < 32 by omega) hj, bitOf_mask (show 13 < 32 by omega) hj, IacHits]
  cases bitOf s.dbcr0 10 <;> cases bitOf s.dbcr0 14 <;> simp [inRange_iff, or_assoc]

/-! ## Data address compares -/

theorem dacHit_iff (dac : Word) (size : BitVec 2) (a : Word) : dacHit dac size a = true ↔
    a.toNat / 2 ^ (if size.toNat = 3 then 5 else size.toNat) = dac.toNat / 2 ^ (if size.toNat = 3 then 5 else size.toNat) := by
  have e : dacIgnored size = if size.toNat = 3 then 5 else size.toNat := by revert size; decide
  simp only [dacHit, beq_iff_eq, e, ← BitVec.toNat_inj, BitVec.toNat_ushiftRight, Nat.shiftRight_eq_div_pow]

/-- The compare of a state. -/
def compareOf (s : State) (second store : Bool) : DataCompare := if second then s.compare2 store else s.compare1 store

/-- The range that the data compares share, if DBCR1[DA12] selects it. -/
def compareRange (s : State) : Option (Word → Bool) :=
  if bitOf s.dbcr1 8 then some (inRange (bitOf s.dbcr1 9) s.dac1 s.dac2) else none

/-- Whether an address hits a compare, its value apart. -/
def addressHits (s : State) (second store : Bool) (a : Word) : Bool :=
  (compareOf s second store).enabled && (match compareRange s with
    | some r => r a
    | none => dacHit (compareOf s second store).address (compareOf s second store).size a)

theorem addressHits_iff (s : State) (second store : Bool) (a : Word) :
    addressHits s second store a = true ↔ DacMatches s second store a := by
  cases second <;> cases store <;> cases h : bitOf s.dbcr1 8 <;>
    simp [addressHits, compareOf, compareRange, DacMatches, State.compare1, State.compare2, h, inRange_iff, dacHit_iff,
      Nat.shiftRight_eq_div_pow]

/-- A compare hits an address as `DacMatches` says, and by value where DVCn takes part. -/
theorem compare_hits (s : State) (second store : Bool) (tr : Transfer) (moved : List (Word × Byte)) (free : Bool) (a : Word) :
    (compareOf s second store).hits (compareRange s) tr moved free a = true ↔ DacMatches s second store a ∧
      ((compareOf s second store).comparesValue = true →
        (if (compareOf s second store).isOpen tr then free else (compareOf s second store).valueMatches moved a) = true) := by
  rw [← addressHits_iff]
  unfold DataCompare.hits addressHits
  cases (compareOf s second store).comparesValue <;> cases compareRange s <;> simp [and_assoc]

theorem misaligned_iff (a : Word) : misaligned a = false ↔ a.toNat % 4 = 0 := by
  simp only [misaligned, bne_eq_false_iff_eq, ← BitVec.toNat_inj, BitVec.extractLsb'_toNat]
  simp

/-- The addresses a reference presents. -/
theorem mem_comparedAddresses {ea a : Word} {n : Nat} : a ∈ comparedAddresses ea n ↔
    ∃ k, k < n ∧ (k = 0 ∨ (ea + BitVec.ofNat 32 k).toNat % 4 = 0) ∧ a = ea + BitVec.ofNat 32 k := by
  cases n with
  | zero => simp [comparedAddresses]
  | succ m =>
    simp only [comparedAddresses, byteAddresses, List.range_succ_eq_map, List.map_cons, List.tail_cons, List.mem_cons,
      List.mem_filter, List.mem_map, List.mem_range, Bool.not_eq_true', misaligned_iff, Nat.add_one_ne_zero, if_false]
    constructor
    · rintro (rfl | ⟨⟨k, ⟨j, hj, rfl⟩, rfl⟩, h⟩)
      · exact ⟨0, by omega, .inl rfl, by simp⟩
      · exact ⟨j + 1, by omega, .inr h, rfl⟩
    · rintro ⟨k, hk, h, rfl⟩
      cases k with
      | zero => exact .inl (by simp)
      | succ j => exact .inr ⟨⟨j + 1, ⟨j, by omega, rfl⟩, rfl⟩, h.resolve_left (by omega)⟩

/-- Without value compares the hits of an access are those of the addresses it presents. -/
theorem dataHits_any (s t : State) (x : DataAccess) (second : Bool)
    (hv : ∀ second store, (compareOf s second store).comparesValue = false) :
    (s.dataHits t x).any (fun h => if second then h.2 else h.1) = true ↔
      ∃ k, k < x.n ∧ (k = 0 ∨ (x.ea + BitVec.ofNat 32 k).toNat % 4 = 0) ∧
        DacMatches s second x.store (x.ea + BitVec.ofNat 32 k) := by
  have e (p : Word × Nat) : (if second then
        ((s.compare2 x.store).hits (compareRange s) x.moves (x.moves.bytes s x.ea x.n) ((t.free (2 * p.2 + 1)).getLsbD 0) p.1)
      else (s.compare1 x.store).hits (compareRange s) x.moves (x.moves.bytes s x.ea x.n) ((t.free (2 * p.2)).getLsbD 0) p.1)
      = true ↔ DacMatches s second x.store p.1 := by
    have h (f : Bool) := compare_hits s second x.store x.moves (x.moves.bytes s x.ea x.n) f p.1
    simp only [hv, Bool.false_eq_true, false_imp_iff, and_true] at h
    cases second
    · exact h _
    · exact h _
  rw [List.any_eq_true]
  constructor
  · rintro ⟨b, hb, hit⟩
    obtain ⟨p, hp, rfl⟩ := List.mem_map.1 hb
    obtain ⟨k, hk, ha, hpa⟩ := mem_comparedAddresses.1 (List.fst_mem_of_mem_zipIdx hp)
    exact ⟨k, hk, ha, hpa ▸ (e p).1 hit⟩
  · rintro ⟨k, hk, ha, hm⟩
    obtain ⟨j, hj⟩ := List.mem_iff_getElem?.1 (mem_comparedAddresses.2 ⟨k, hk, ha, rfl⟩)
    exact ⟨_, List.mem_map_of_mem (List.mem_zipIdx_iff_getElem?.2 hj), (e (_, j)).2 hm⟩

/-- Without value compares `dacEvents` has exactly the bits of the data address compares that an address of the reference hits. -/
theorem dacEvents_bits (i : Instr) (s t : State) (hv : ∀ second store, (compareOf s second store).comparesValue = false) :
    BitsAre (DacHits i s) (dacEvents i s t) := by
  intro j hj
  cases hr : dataReference i s with
  | none => simp [dacEvents, dataAccess, DacHits, hr, bitOf]
  | some r =>
    obtain ⟨store, ea, n⟩ := r
    have hstop : s.stopPart t ⟨store, ea, n, transfer i s⟩ = none := by
      have h1 := hv false store
      have h2 := hv true store
      simp only [compareOf, Bool.false_eq_true, if_false, if_true] at h1 h2
      simp [State.stopPart, h1, h2]
    have hd : dacEvents i s t = (if (s.dataHits t ⟨store, ea, n, transfer i s⟩).any (·.1) = true then bitMask (if store then 8 else 7) else 0)
        ||| (if (s.dataHits t ⟨store, ea, n, transfer i s⟩).any (·.2) = true then bitMask (if store then 10 else 9) else 0) := by
      simp only [dacEvents, dataAccess, hr, Option.map_some, hstop]
    have h1 := dataHits_any s t ⟨store, ea, n, transfer i s⟩ false hv
    have h2 := dataHits_any s t ⟨store, ea, n, transfer i s⟩ true hv
    simp only [Bool.false_eq_true, if_false, if_true] at h1 h2
    rw [hd, bitOf_or, Bool.or_eq_true, bitOf_mask (by split <;> omega) hj, bitOf_mask (by split <;> omega) hj, h1, h2]
    constructor
    · rintro (⟨rfl, k, hk, ha, hm⟩ | ⟨rfl, k, hk, ha, hm⟩)
      · exact ⟨store, false, ea, n, k, hr, hk, ha, hm, by cases store <;> rfl⟩
      · exact ⟨store, true, ea, n, k, hr, hk, ha, hm, by cases store <;> rfl⟩
    · rintro ⟨store', second, ea', n', k, he, hk, ha, hm, rfl⟩
      obtain ⟨rfl, rfl, rfl⟩ : store = store' ∧ ea = ea' ∧ n = n' := by simpa [hr] using he
      cases second
      · exact .inl ⟨by cases store <;> rfl, k, hk, ha, hm⟩
      · exact .inr ⟨by cases store <;> rfl, k, hk, ha, hm⟩

end Sys2Proof.Laws
end

