-- ==== Sys2Proof/Laws/Decode.lean ====
section
/-! SUPPORT. What each field of an encoded word is, and when a word decodes through each opcode table. -/
namespace Sys2Proof.Laws

/-! ## Fields of the forms -/

@[simp] theorem opcd_dForm (o : BitVec 6) (a b : BitVec 5) (i : BitVec 16) : opcd (dForm o a b i) = o := by
  show @BitVec.extractLsb' (6+5+5+16) 26 6 (o ++ a ++ b ++ i) = _
  rw [BitVec.extractLsb'_append_eq_of_le (by decide), BitVec.extractLsb'_append_eq_of_le (by decide), BitVec.extractLsb'_append_eq_of_le (by decide)]
  simp

@[simp] theorem f06_dForm (o : BitVec 6) (a b : BitVec 5) (i : BitVec 16) : f06 (dForm o a b i) = a := by
  show @BitVec.extractLsb' (6+5+5+16) 21 5 (o ++ a ++ b ++ i) = _
  rw [BitVec.extractLsb'_append_eq_of_le (by decide), BitVec.extractLsb'_append_eq_of_le (by decide), BitVec.extractLsb'_append_eq_of_add_le (by decide)]
  simp

@[simp] theorem f11_dForm (o : BitVec 6) (a b : BitVec 5) (i : BitVec 16) : f11 (dForm o a b i) = b := by
  show @BitVec.extractLsb' (6+5+5+16) 16 5 (o ++ a ++ b ++ i) = _
  rw [BitVec.extractLsb'_append_eq_of_le (by decide), BitVec.extractLsb'_append_eq_of_add_le (by decide)]
  simp

@[simp] theorem imm_dForm (o : BitVec 6) (a b : BitVec 5) (i : BitVec 16) : imm (dForm o a b i) = i := by
  show @BitVec.extractLsb' (6+5+5+16) 0 16 (o ++ a ++ b ++ i) = _
  rw [BitVec.extractLsb'_append_eq_of_add_le (by decide)]
  simp

@[simp] theorem bfField_dForm (o : BitVec 6) (a b : BitVec 5) (i : BitVec 16) : bfField (dForm o a b i) = (a).extractLsb' 2 3 := by
  show @BitVec.extractLsb' (6+5+5+16) 23 3 (o ++ a ++ b ++ i) = _
  rw [BitVec.extractLsb'_append_eq_of_le (by decide), BitVec.extractLsb'_append_eq_of_le (by decide), BitVec.extractLsb'_append_eq_of_add_le (by decide)]

@[simp] theorem opcd_xForm (o : BitVec 6) (a b c : BitVec 5) (xo : BitVec 10) (r : Bool) : opcd (xForm o a b c xo r) = o := by
  show @BitVec.extractLsb' (6+5+5+5+10+1) 26 6 (o ++ a ++ b ++ c ++ xo ++ BitVec.ofBool r) = _
  rw [BitVec.extractLsb'_append_eq_of_le (by decide), BitVec.extractLsb'_append_eq_of_le (by decide), BitVec.extractLsb'_append_eq_of_le (by decide), BitVec.extractLsb'_append_eq_of_le (by decide), BitVec.extractLsb'_append_eq_of_le (by decide)]
  simp

@[simp] theorem f06_xForm (o : BitVec 6) (a b c : BitVec 5) (xo : BitVec 10) (r : Bool) : f06 (xForm o a b c xo r) = a := by
  show @BitVec.extractLsb' (6+5+5+5+10+1) 21 5 (o ++ a ++ b ++ c ++ xo ++ BitVec.ofBool r) = _
  rw [BitVec.extractLsb'_append_eq_of_le (by decide), BitVec.extractLsb'_append_eq_of_le (by decide), BitVec.extractLsb'_append_eq_of_le (by decide), BitVec.extractLsb'_append_eq_of_le (by decide), BitVec.extractLsb'_append_eq_of_add_le (by decide)]
  simp

@[simp] theorem f11_xForm (o : BitVec 6) (a b c : BitVec 5) (xo : BitVec 10) (r : Bool) : f11 (xForm o a b c xo r) = b := by
  show @BitVec.extractLsb' (6+5+5+5+10+1) 16 5 (o ++ a ++ b ++ c ++ xo ++ BitVec.ofBool r) = _
  rw [BitVec.extractLsb'_append_eq_of_le (by decide), BitVec.extractLsb'_append_eq_of_le (by decide), BitVec.extractLsb'_append_eq_of_le (by decide), BitVec.extractLsb'_append_eq_of_add_le (by decide)]
  simp

@[simp] theorem f16_xForm (o : BitVec 6) (a b c : BitVec 5) (xo : BitVec 10) (r : Bool) : f16 (xForm o a b c xo r) = c := by
  show @BitVec.extractLsb' (6+5+5+5+10+1) 11 5 (o ++ a ++ b ++ c ++ xo ++ BitVec.ofBool r) = _
  rw [BitVec.extractLsb'_append_eq_of_le (by decide), BitVec.extractLsb'_append_eq_of_le (by decide), BitVec.extractLsb'_append_eq_of_add_le (by decide)]
  simp

@[simp] theorem xo10_xForm (o : BitVec 6) (a b c : BitVec 5) (xo : BitVec 10) (r : Bool) : xo10 (xForm o a b c xo r) = xo := by
  show @BitVec.extractLsb' (6+5+5+5+10+1) 1 10 (o ++ a ++ b ++ c ++ xo ++ BitVec.ofBool r) = _
  rw [BitVec.extractLsb'_append_eq_of_le (by decide), BitVec.extractLsb'_append_eq_of_add_le (by decide)]
  simp

@[simp] theorem xo9_xForm (o : BitVec 6) (a b c : BitVec 5) (xo : BitVec 10) (r : Bool) : xo9 (xForm o a b c xo r) = (xo).extractLsb' 0 9 := by
  show @BitVec.extractLsb' (6+5+5+5+10+1) 1 9 (o ++ a ++ b ++ c ++ xo ++ BitVec.ofBool r) = _
  rw [BitVec.extractLsb'_append_eq_of_le (by decide), BitVec.extractLsb'_append_eq_of_add_le (by decide)]

@[simp] theorem f21_xForm (o : BitVec 6) (a b c : BitVec 5) (xo : BitVec 10) (r : Bool) : f21 (xForm o a b c xo r) = (xo).extractLsb' 5 5 := by
  show @BitVec.extractLsb' (6+5+5+5+10+1) 6 5 (o ++ a ++ b ++ c ++ xo ++ BitVec.ofBool r) = _
  rw [BitVec.extractLsb'_append_eq_of_le (by decide), BitVec.extractLsb'_append_eq_of_add_le (by decide)]

@[simp] theorem f26_xForm (o : BitVec 6) (a b c : BitVec 5) (xo : BitVec 10) (r : Bool) : f26 (xForm o a b c xo r) = (xo).extractLsb' 0 5 := by
  show @BitVec.extractLsb' (6+5+5+5+10+1) 1 5 (o ++ a ++ b ++ c ++ xo ++ BitVec.ofBool r) = _
  rw [BitVec.extractLsb'_append_eq_of_le (by decide), BitVec.extractLsb'_append_eq_of_add_le (by decide)]

@[simp] theorem bfField_xForm (o : BitVec 6) (a b c : BitVec 5) (xo : BitVec 10) (r : Bool) : bfField (xForm o a b c xo r) = (a).extractLsb' 2 3 := by
  show @BitVec.extractLsb' (6+5+5+5+10+1) 23 3 (o ++ a ++ b ++ c ++ xo ++ BitVec.ofBool r) = _
  rw [BitVec.extractLsb'_append_eq_of_le (by decide), BitVec.extractLsb'_append_eq_of_le (by decide), BitVec.extractLsb'_append_eq_of_le (by decide), BitVec.extractLsb'_append_eq_of_le (by decide), BitVec.extractLsb'_append_eq_of_add_le (by decide)]

@[simp] theorem bfaField_xForm (o : BitVec 6) (a b c : BitVec 5) (xo : BitVec 10) (r : Bool) : bfaField (xForm o a b c xo r) = (b).extractLsb' 2 3 := by
  show @BitVec.extractLsb' (6+5+5+5+10+1) 18 3 (o ++ a ++ b ++ c ++ xo ++ BitVec.ofBool r) = _
  rw [BitVec.extractLsb'_append_eq_of_le (by decide), BitVec.extractLsb'_append_eq_of_le (by decide), BitVec.extractLsb'_append_eq_of_le (by decide), BitVec.extractLsb'_append_eq_of_add_le (by decide)]

@[simp] theorem opcd_iForm (o : BitVec 6) (li : BitVec 24) (aa lk : Bool) : opcd (iForm o li aa lk) = o := by
  show @BitVec.extractLsb' (6+24+1+1) 26 6 (o ++ li ++ BitVec.ofBool aa ++ BitVec.ofBool lk) = _
  rw [BitVec.extractLsb'_append_eq_of_le (by decide), BitVec.extractLsb'_append_eq_of_le (by decide), BitVec.extractLsb'_append_eq_of_le (by decide)]
  simp

@[simp] theorem liField_iForm (o : BitVec 6) (li : BitVec 24) (aa lk : Bool) : liField (iForm o li aa lk) = li := by
  show @BitVec.extractLsb' (6+24+1+1) 2 24 (o ++ li ++ BitVec.ofBool aa ++ BitVec.ofBool lk) = _
  rw [BitVec.extractLsb'_append_eq_of_le (by decide), BitVec.extractLsb'_append_eq_of_le (by decide), BitVec.extractLsb'_append_eq_of_add_le (by decide)]
  simp

@[simp] theorem opcd_bForm (o : BitVec 6) (bo bi : BitVec 5) (bd : BitVec 14) (aa lk : Bool) : opcd (bForm o bo bi bd aa lk) = o := by
  show @BitVec.extractLsb' (6+5+5+14+1+1) 26 6 (o ++ bo ++ bi ++ bd ++ BitVec.ofBool aa ++ BitVec.ofBool lk) = _
  rw [BitVec.extractLsb'_append_eq_of_le (by decide), BitVec.extractLsb'_append_eq_of_le (by decide), BitVec.extractLsb'_append_eq_of_le (by decide), BitVec.extractLsb'_append_eq_of_le (by decide), BitVec.extractLsb'_append_eq_of_le (by decide)]
  simp

@[simp] theorem f06_bForm (o : BitVec 6) (bo bi : BitVec 5) (bd : BitVec 14) (aa lk : Bool) : f06 (bForm o bo bi bd aa lk) = bo := by
  show @BitVec.extractLsb' (6+5+5+14+1+1) 21 5 (o ++ bo ++ bi ++ bd ++ BitVec.ofBool aa ++ BitVec.ofBool lk) = _
  rw [BitVec.extractLsb'_append_eq_of_le (by decide), BitVec.extractLsb'_append_eq_of_le (by decide), BitVec.extractLsb'_append_eq_of_le (by decide), BitVec.extractLsb'_append_eq_of_le (by decide), BitVec.extractLsb'_append_eq_of_add_le (by decide)]
  simp

@[simp] theorem f11_bForm (o : BitVec 6) (bo bi : BitVec 5) (bd : BitVec 14) (aa lk : Bool) : f11 (bForm o bo bi bd aa lk) = bi := by
  show @BitVec.extractLsb' (6+5+5+14+1+1) 16 5 (o ++ bo ++ bi ++ bd ++ BitVec.ofBool aa ++ BitVec.ofBool lk) = _
  rw [BitVec.extractLsb'_append_eq_of_le (by decide), BitVec.extractLsb'_append_eq_of_le (by decide), BitVec.extractLsb'_append_eq_of_le (by decide), BitVec.extractLsb'_append_eq_of_add_le (by decide)]
  simp

@[simp] theorem bdField_bForm (o : BitVec 6) (bo bi : BitVec 5) (bd : BitVec 14) (aa lk : Bool) : bdField (bForm o bo bi bd aa lk) = bd := by
  show @BitVec.extractLsb' (6+5+5+14+1+1) 2 14 (o ++ bo ++ bi ++ bd ++ BitVec.ofBool aa ++ BitVec.ofBool lk) = _
  rw [BitVec.extractLsb'_append_eq_of_le (by decide), BitVec.extractLsb'_append_eq_of_le (by decide), BitVec.extractLsb'_append_eq_of_add_le (by decide)]
  simp

@[simp] theorem bit31_xForm (o : BitVec 6) (a b c : BitVec 5) (xo : BitVec 10) (r : Bool) :
    bit31 (xForm o a b c xo r) = r := by
  show @BitVec.getLsbD (6+5+5+5+10+1) (o ++ a ++ b ++ c ++ xo ++ BitVec.ofBool r) 0 = _
  rw [BitVec.getLsbD_append]; simp

@[simp] theorem bit21_xForm (o : BitVec 6) (a b c : BitVec 5) (xo : BitVec 10) (r : Bool) :
    bit21 (xForm o a b c xo r) = xo.getLsbD 9 := by
  show @BitVec.getLsbD (6+5+5+5+10+1) (o ++ a ++ b ++ c ++ xo ++ BitVec.ofBool r) 10 = _
  rw [BitVec.getLsbD_append, BitVec.getLsbD_append]; simp

@[simp] theorem bit16_xForm (o : BitVec 6) (a b c : BitVec 5) (xo : BitVec 10) (r : Bool) :
    bit16 (xForm o a b c xo r) = c.getLsbD 4 := by
  show @BitVec.getLsbD (6+5+5+5+10+1) (o ++ a ++ b ++ c ++ xo ++ BitVec.ofBool r) 15 = _
  rw [BitVec.getLsbD_append, BitVec.getLsbD_append, BitVec.getLsbD_append]; simp

@[simp] theorem bit31_iForm (o : BitVec 6) (li : BitVec 24) (aa lk : Bool) : bit31 (iForm o li aa lk) = lk := by
  show @BitVec.getLsbD (6+24+1+1) (o ++ li ++ BitVec.ofBool aa ++ BitVec.ofBool lk) 0 = _
  rw [BitVec.getLsbD_append]; simp

@[simp] theorem bit30_iForm (o : BitVec 6) (li : BitVec 24) (aa lk : Bool) : bit30 (iForm o li aa lk) = aa := by
  show @BitVec.getLsbD (6+24+1+1) (o ++ li ++ BitVec.ofBool aa ++ BitVec.ofBool lk) 1 = _
  rw [BitVec.getLsbD_append, BitVec.getLsbD_append]; simp

@[simp] theorem bit31_bForm (o : BitVec 6) (bo bi : BitVec 5) (bd : BitVec 14) (aa lk : Bool) :
    bit31 (bForm o bo bi bd aa lk) = lk := by
  show @BitVec.getLsbD (6+5+5+14+1+1) (o ++ bo ++ bi ++ bd ++ BitVec.ofBool aa ++ BitVec.ofBool lk) 0 = _
  rw [BitVec.getLsbD_append]; simp

@[simp] theorem bit30_bForm (o : BitVec 6) (bo bi : BitVec 5) (bd : BitVec 14) (aa lk : Bool) :
    bit30 (bForm o bo bi bd aa lk) = aa := by
  show @BitVec.getLsbD (6+5+5+14+1+1) (o ++ bo ++ bi ++ bd ++ BitVec.ofBool aa ++ BitVec.ofBool lk) 1 = _
  rw [BitVec.getLsbD_append, BitVec.getLsbD_append]; simp

/-- The mask of mtcrf, which straddles the second and third register fields. -/
@[simp] theorem fxmField_xForm (o : BitVec 6) (a : BitVec 5) (m : BitVec 8) (xo : BitVec 10) (r : Bool) :
    fxmField (xForm o a (0#1 ++ m.extractLsb' 4 4) (m.extractLsb' 0 4 ++ 0#1) xo r) = m := by
  apply BitVec.eq_of_getLsbD_eq
  intro i hi
  show (@BitVec.extractLsb' (6+5+5+5+10+1) 12 8 (o ++ a ++ (0#1 ++ m.extractLsb' 4 4) ++ (m.extractLsb' 0 4 ++ 0#1) ++ xo
    ++ BitVec.ofBool r)).getLsbD i = _
  rcases i with _ | _ | _ | _ | _ | _ | _ | _ | i <;> first | omega | (simp only [BitVec.getLsbD_extractLsb', BitVec.getLsbD_append]; simp)

@[simp] theorem append_low (a : BitVec 3) : (a ++ 0#2).extractLsb' 2 3 = a := by
  rw [BitVec.extractLsb'_append_eq_of_le (by decide)]; simp

@[simp] theorem append_mb (mb me : BitVec 5) : (mb ++ me).extractLsb' 5 5 = mb := by
  rw [BitVec.extractLsb'_append_eq_of_le (by decide)]; simp

@[simp] theorem append_me (mb me : BitVec 5) : (mb ++ me).extractLsb' 0 5 = me := by
  rw [BitVec.extractLsb'_append_eq_of_add_le (by decide)]; simp

@[simp] theorem append_oe (oe : Bool) (xo : BitVec 9) : (BitVec.ofBool oe ++ xo).extractLsb' 0 9 = xo := by
  rw [BitVec.extractLsb'_append_eq_of_add_le (by decide)]; simp

@[simp] theorem oe_append (oe : Bool) (xo : BitVec 9) : (BitVec.ofBool oe ++ xo).getLsbD 9 = oe := by
  rw [BitVec.getLsbD_append]; simp

@[simp] theorem e_append (e : Bool) : (BitVec.ofBool e ++ 0#4)[4] = e := by cases e <;> rfl

@[simp] theorem hi_lo (n : BitVec 10) : hiHalf n ++ loHalf n = n := by
  apply BitVec.eq_of_getLsbD_eq
  intro i hi
  rcases i with _ | _ | _ | _ | _ | _ | _ | _ | _ | _ | i <;>
    first | omega | (simp only [hiHalf, loHalf, BitVec.getLsbD_extractLsb', BitVec.getLsbD_append]; simp)

/-! ## Decoding through each table -/

theorem decodeWord_primary (w : Word) (k : BitVec 6) (f : Word → Instr) (h : opcd w = k)
    (hf : findRow k.toNat primaryTable = some f) : decodeWord w = .ok (f w) := by
  simp only [decodeWord, h, hf]

theorem decodeWord_group19 (w : Word) (xo : BitVec 10) (f : Word → Instr) (h : opcd w = 19#6) (hx : xo10 w = xo)
    (hf : findRow xo.toNat group19 = some f) : decodeWord w = .ok (f w) := by
  have : findRow (19#6).toNat primaryTable = none := rfl
  simp only [decodeWord, h, this, hx, hf]; rfl

theorem decodeWord_group4X (w : Word) (xo : BitVec 10) (f : Word → Instr) (h : opcd w = 4#6) (hx : xo10 w = xo)
    (hf : findRow xo.toNat group4X = some f) : decodeWord w = .ok (f w) := by
  have : findRow (4#6).toNat primaryTable = none := rfl
  simp only [decodeWord, decode4, h, hx, hf, this]; rfl

theorem decodeWord_group4XO (w : Word) (xo : BitVec 10) (f : Word → Instr) (h : opcd w = 4#6) (hx : xo10 w = xo)
    (hn : findRow xo.toNat group4X = none) (hf : findRow (xo9 w).toNat group4XO = some f) : decodeWord w = .ok (f w) := by
  have : findRow (4#6).toNat primaryTable = none := rfl
  simp only [decodeWord, decode4, h, hx, hn, hf, this]; rfl

theorem decodeWord_group31X (w : Word) (xo : BitVec 10) (f : Word → Instr) (h : opcd w = 31#6) (hx : xo10 w = xo)
    (hf : findRow xo.toNat group31X = some f) : decodeWord w = .ok (f w) := by
  have : findRow (31#6).toNat primaryTable = none := rfl
  simp only [decodeWord, decode31, h, hx, hf, this]; rfl

theorem decodeWord_group31XO (w : Word) (xo : BitVec 10) (f : Word → Instr) (h : opcd w = 31#6) (hx : xo10 w = xo)
    (hn : findRow xo.toNat group31X = none) (hf : findRow (xo9 w).toNat group31XO = some f) : decodeWord w = .ok (f w) := by
  have : findRow (31#6).toNat primaryTable = none := rfl
  simp only [decodeWord, decode31, h, hx, hn, hf, this]; rfl

/-! ## Bytes -/

@[simp] theorem wordOfBytes_bytesOfWord (w : Word) :
    wordOfBytes (w.extractLsb' 24 8) (w.extractLsb' 16 8) (w.extractLsb' 8 8) (w.extractLsb' 0 8) = w := by
  apply BitVec.eq_of_getLsbD_eq
  intro i hi
  show (@BitVec.getLsbD (8+8+8+8) (w.extractLsb' 24 8 ++ w.extractLsb' 16 8 ++ w.extractLsb' 8 8 ++ w.extractLsb' 0 8) i) = _
  simp only [BitVec.getLsbD_append, BitVec.getLsbD_extractLsb']
  split
  · simp_all
  · split
    · have : i - 8 < 8 := by omega
      have h : 8 + (i - 8) = i := by omega
      simp [this, h]
    · split
      · have : i - 8 - 8 < 8 := by omega
        have h : 16 + (i - 8 - 8) = i := by omega
        simp [this, h]
      · have : i - 8 - 8 - 8 < 8 := by omega
        have h : 24 + (i - 8 - 8 - 8) = i := by omega
        simp [this, h]

/-- The first four bytes of a stream decide what is decoded. -/
theorem decode_bytesOfWord (w : Word) (rest : List Byte) :
    decode (bytesOfWord w ++ rest) = (decodeWord w).map fun i => (i, rest) := by
  simp only [bytesOfWord, List.cons_append, List.nil_append, decode, wordOfBytes_bytesOfWord]
  cases decodeWord w <;> rfl

end Sys2Proof.Laws
end

