-- ==== Sys2Proof/Laws/Memory.lean ====
section
/-! SUPPORT. Storage: reading after writing, and every operation keeps the canonical form. -/
namespace Sys2Proof.Laws
open Sys2Proof.Machine

theorem wfFrom_mono {lo lo' : Nat} {m : List Host.Cell} (h : lo' ≤ lo) (hm : Memory.wfFrom lo m = true) :
    Memory.wfFrom lo' m = true := by
  cases m with
  | nil => rfl
  | cons c m =>
    obtain ⟨k, v⟩ := c
    simp only [Memory.wfFrom, Bool.and_eq_true, decide_eq_true_eq] at hm ⊢
    exact ⟨⟨⟨by omega, hm.1.1.2⟩, hm.1.2⟩, hm.2⟩

/-- An address below everything listed reads as unlisted. -/
theorem read_below {lo a : Nat} {m : List Host.Cell} (hm : Memory.wfFrom lo m = true) (h : a < lo) :
    Memory.read m a = Memory.unlisted := by
  induction m generalizing lo with
  | nil => rfl
  | cons c m ih =>
    obtain ⟨k, v⟩ := c
    simp only [Memory.wfFrom, Bool.and_eq_true, decide_eq_true_eq] at hm
    simp only [Memory.read]
    rw [if_neg (by omega)]
    exact ih hm.2 (by omega)

/-- A byte just written is read back. -/
theorem read_write_same {lo a : Nat} {m : List Host.Cell} (hm : Memory.wfFrom lo m = true) (b : Byte) :
    Memory.read (Memory.write m a b) a = b := by
  induction m generalizing lo with
  | nil => simp only [Memory.write]; split <;> simp_all [Memory.read]
  | cons c m ih =>
    obtain ⟨k, v⟩ := c
    simp only [Memory.wfFrom, Bool.and_eq_true, decide_eq_true_eq] at hm
    simp only [Memory.write]
    split
    · split
      · simp only [Memory.read, if_neg (show ¬k = a by omega), read_below hm.2 (show a < k + 1 by omega), *]
      · simp [Memory.read]
    · split
      · split
        · rename_i h h'; subst h h'
          exact read_below hm.2 (by omega)
        · simp [Memory.read]
      · simp only [Memory.read, if_neg (show ¬k = a by omega)]
        exact ih hm.2

/-- A write leaves every other address alone. -/
theorem read_write_other {a a' : Nat} (m : List Host.Cell) (b : Byte) (h : a' ≠ a) :
    Memory.read (Memory.write m a b) a' = Memory.read m a' := by
  induction m with
  | nil => simp only [Memory.write]; split <;> simp [Memory.read, h.symm]
  | cons c m ih =>
    obtain ⟨k, v⟩ := c
    simp only [Memory.write]
    split
    · split <;> simp [Memory.read, h.symm]
    · split
      · rename_i h'; subst h'
        split <;> simp [Memory.read, h.symm]
      · simp only [Memory.read, ih]

/-- A write keeps the canonical form. -/
theorem wfFrom_write {lo a : Nat} {m : List Host.Cell} (hm : Memory.wfFrom lo m = true) (hlo : lo ≤ a) (ha : a < 2 ^ 32)
    (b : Byte) : Memory.wfFrom lo (Memory.write m a b) = true := by
  induction m generalizing lo with
  | nil => simp only [Memory.write]; split <;> simp_all [Memory.wfFrom]
  | cons c m ih =>
    obtain ⟨k, v⟩ := c
    simp only [Memory.wfFrom, Bool.and_eq_true, decide_eq_true_eq] at hm
    simp only [Memory.write]
    split
    · split
      · simp only [Memory.wfFrom, Bool.and_eq_true, decide_eq_true_eq]; exact hm
      · simp only [Memory.wfFrom, Bool.and_eq_true, decide_eq_true_eq]
        exact ⟨⟨⟨hlo, ha⟩, by assumption⟩, ⟨⟨by omega, hm.1.1.2⟩, hm.1.2⟩, hm.2⟩
    · split
      · rename_i h; subst h
        split
        · exact wfFrom_mono (by omega) hm.2
        · simp only [Memory.wfFrom, Bool.and_eq_true, decide_eq_true_eq]
          exact ⟨⟨⟨hlo, ha⟩, by assumption⟩, hm.2⟩
      · simp only [Memory.wfFrom, Bool.and_eq_true, decide_eq_true_eq]
        exact ⟨hm.1, ih hm.2 (by omega)⟩

theorem wf_write {m : List Host.Cell} (hm : Memory.wf m = true) (a : Word) (b : Byte) :
    Memory.wf (Memory.write m a.toNat b) = true :=
  wfFrom_write hm (Nat.zero_le _) a.isLt b

theorem wf_storeBytes {s : State} (hm : Memory.wf s.mem = true) (pairs : List (Word × Byte)) :
    Memory.wf (s.storeBytes pairs) = true := by
  unfold State.storeBytes
  generalize s.mem = m at hm
  induction pairs generalizing m with
  | nil => exact hm
  | cons p ps ih =>
    simp only [List.foldl_cons]
    split
    · exact ih _ (wf_write hm _ _)
    · exact ih m hm

theorem wf_writes {m : List Host.Cell} (hm : Memory.wf m = true) (pairs : List (Word × Byte)) :
    Memory.wf (pairs.foldl (fun m p => Memory.write m p.1.toNat p.2) m) = true := by
  induction pairs generalizing m with
  | nil => exact hm
  | cons p ps ih => exact ih (wf_write hm _ _)

theorem wf_storeInstruction {m : List Host.Cell} (hm : Memory.wf m = true) (ra : Word) (little : Bool) (w : Word) :
    Memory.wf (storeInstruction m ra little w) = true :=
  wf_writes hm _

/-- Equal reads make equal memories: the canonical form is unique. -/
theorem eq_of_reads {lo : Nat} {m m' : List Host.Cell} (hm : Memory.wfFrom lo m = true) (hm' : Memory.wfFrom lo m' = true)
    (h : ∀ a, Memory.read m a = Memory.read m' a) : m = m' := by
  induction m generalizing lo m' with
  | nil =>
    cases m' with
    | nil => rfl
    | cons c m' =>
      obtain ⟨k, v⟩ := c
      simp only [Memory.wfFrom, Bool.and_eq_true, decide_eq_true_eq] at hm'
      have := h k
      simp only [Memory.read, if_true] at this
      exact absurd this.symm hm'.1.2
  | cons c m ih =>
    obtain ⟨k, v⟩ := c
    have hm0 := hm
    simp only [Memory.wfFrom, Bool.and_eq_true, decide_eq_true_eq] at hm
    cases m' with
    | nil =>
      have := h k
      simp only [Memory.read, if_true] at this
      exact absurd this hm.1.2
    | cons c' m' =>
      obtain ⟨k', v'⟩ := c'
      have hm0' := hm'
      simp only [Memory.wfFrom, Bool.and_eq_true, decide_eq_true_eq] at hm'
      have hk : k = k' := by
        rcases Nat.lt_trichotomy k k' with hlt | heq | hgt
        · have := h k
          simp only [Memory.read, if_true, if_neg (show ¬k' = k by omega), read_below hm'.2 (show k < k' + 1 by omega)] at this
          exact absurd this hm.1.2
        · exact heq
        · have := h k'
          simp only [Memory.read, if_true, if_neg (show ¬k = k' by omega), read_below hm.2 (show k' < k + 1 by omega)] at this
          exact absurd this.symm hm'.1.2
      subst hk
      have hv : v = v' := by simpa [Memory.read] using h k
      subst hv
      congr 1
      refine ih hm.2 hm'.2 fun a => ?_
      by_cases ha : k = a
      · subst ha
        rw [read_below hm.2 (by omega), read_below hm'.2 (by omega)]
      · simpa [Memory.read, ha] using h a

/-- The storage of the machine right after reset is canonical. -/
theorem wf_reset : Memory.wf State.reset.mem = true := rfl

end Sys2Proof.Laws
end

