-- ==== Sys2Proof/Laws/Storage.lean ====
section
/-! SUPPORT. Data accesses: when nothing stops them, what a load reads and what a store leaves. -/
namespace Sys2Proof.Laws
open Sys2Proof.Machine

/-! ## Access checks -/

theorem accessible_iff (s : State) (store : Bool) (ea : Word) :
    s.accessible store ea = true ↔ ∃ ra a, s.translateData store ea = .real ra a ∧
      (s.regionKind ra = none ∨ store = false ∧ s.regionKind ra = some .rom) := by
  unfold State.accessible
  cases h : s.translateData store ea <;> simp

theorem realData_of_real {s : State} {store : Bool} {ea ra : Word} {a : Attributes}
    (h : s.translateData store ea = .real ra a) : s.realData store ea = ra := by simp [State.realData, h]

theorem isHole_of_accessible {s : State} {store : Bool} {ea : Word} (h : s.accessible store ea = true) :
    s.isHole (s.realData store ea) = false := by
  obtain ⟨ra, a, h1, h2⟩ := (accessible_iff ..).1 h
  rw [realData_of_real h1]
  obtain h2 | ⟨-, h2⟩ := h2 <;> simp [State.isHole, h2]

theorem refusesWidth_of_accessible {s : State} {store : Bool} {ea : Word} (h : s.accessible store ea = true) (d : Bool) (n : Nat) :
    s.refusesWidth d n (s.realData store ea) = false := by
  obtain ⟨ra, a, h1, h2⟩ := (accessible_iff ..).1 h
  rw [realData_of_real h1]
  obtain h2 | ⟨-, h2⟩ := h2 <;> simp [State.refusesWidth, h2]

/-- An accessible byte is no device's. -/
theorem isDevice_of_accessible {s : State} {store : Bool} {ea : Word} (h : s.accessible store ea = true) :
    s.isDevice (s.realData store ea) = false := by
  obtain ⟨ra, a, h1, h2⟩ := (accessible_iff ..).1 h
  rw [realData_of_real h1]
  obtain h2 | ⟨-, h2⟩ := h2 <;> simp [State.isDevice, h2]

/-- A byte accessible to stores is RAM's. -/
theorem isRam_of_accessible {s : State} {ea : Word} (h : s.accessible true ea = true) :
    s.isRam (s.realData true ea) = true := by
  obtain ⟨ra, a, h1, h2⟩ := (accessible_iff ..).1 h
  rw [realData_of_real h1]
  obtain h2 | ⟨h2, -⟩ := h2
  · simp [State.isRam, h2]
  · cases h2

theorem translationStopAt_none {s : State} {store : Bool} {dear ea : Word} (h : s.accessible store ea = true) :
    translationStopAt s store dear ea = none := by
  obtain ⟨ra, a, h1, -⟩ := (accessible_iff ..).1 h
  simp [translationStopAt, h1]

theorem mem_of_allAccessible {s : State} {store : Bool} {eas : List Word} (h : s.allAccessible store eas = true) :
    ∀ ea ∈ eas, s.accessible store ea = true := by simpa [State.allAccessible] using h

theorem translationStop_none {s : State} {store : Bool} {eas : List Word} (h : ∀ ea ∈ eas, s.accessible store ea = true) :
    translationStop s store eas = none := by
  induction eas with
  | nil => rfl
  | cons a l ih =>
    simp only [translationStop, translationStopAt_none (h a List.mem_cons_self)]
    exact ih fun ea he => h ea (List.mem_cons_of_mem _ he)

/-- A single access to accessible bytes meets no bus error. -/
theorem partFails_accessible {s : State} {store : Bool} {part : Word × Nat}
    (h : ∀ a ∈ byteAddresses part.1 part.2, s.accessible store a = true) : s.partFails store part = false := by
  unfold State.partFails State.busError
  have h1 : ((byteAddresses part.1 part.2).map (s.realData store)).any s.isHole = false := by
    rw [List.any_eq_false]
    intro ra hr
    obtain ⟨a, ha, rfl⟩ := List.mem_map.1 hr
    simp [isHole_of_accessible (h a ha)]
  rw [h1, Bool.false_or]
  cases hb : byteAddresses part.1 part.2 with
  | nil => rfl
  | cons a as =>
    rw [List.map_cons, List.head?_cons]
    exact refusesWidth_of_accessible (h a (hb ▸ List.mem_cons_self)) _ _

theorem busStop_none {s : State} {store : Bool} {parts : List (Word × Nat)} (h : ∀ p ∈ parts, s.partFails store p = false) :
    busStop s store parts = none := by
  have : parts.any (s.partFails store) = false := by
    rw [List.any_eq_false]
    intro p hp
    simp [h p hp]
  simp [busStop, this]

theorem mem_singleBytes {eas : List Word} {p : Word × Nat} (hp : p ∈ singleBytes eas) :
    p.1 ∈ eas ∧ byteAddresses p.1 p.2 = [p.1] := by
  obtain ⟨a, ha, rfl⟩ := List.mem_map.1 hp
  exact ⟨ha, by simp [byteAddresses]⟩

/-- The bytes of the single accesses of an operand are bytes of the operand. -/
theorem bytes_operandParts {ea : Word} {n : Nat} {p : Word × Nat} (hp : p ∈ operandParts ea n) :
    ∀ a ∈ byteAddresses p.1 p.2, a ∈ byteAddresses ea n := by
  unfold operandParts at hp
  split at hp
  · obtain rfl := List.mem_singleton.1 hp
    exact fun a ha => ha
  · obtain ⟨h1, h2⟩ := mem_singleBytes hp
    rw [h2]
    intro a ha
    rwa [List.mem_singleton.1 ha]

theorem operandParts_partFails {s : State} {store : Bool} {ea : Word} {n : Nat}
    (h : s.allAccessible store (byteAddresses ea n) = true) : ∀ p ∈ operandParts ea n, s.partFails store p = false :=
  fun _ hp => partFails_accessible fun a ha => mem_of_allAccessible h a (bytes_operandParts hp a ha)

theorem singleBytes_partFails {s : State} {store : Bool} {eas : List Word} (h : s.allAccessible store eas = true) :
    ∀ p ∈ singleBytes eas, s.partFails store p = false := fun p hp => partFails_accessible fun a ha => by
  obtain ⟨h1, h2⟩ := mem_singleBytes hp
  rw [h2] at ha
  rw [List.mem_singleton.1 ha]
  exact mem_of_allAccessible h _ h1

/-- An access to accessible bytes is not stopped, if its single accesses meet no bus error. -/
theorem dataStop_none {s : State} {store : Bool} {eas : List Word} {parts : List (Word × Nat)}
    (h : s.allAccessible store eas = true) (hp : ∀ p ∈ parts, s.partFails store p = false) :
    dataStop s store eas parts = none := by
  simp [dataStop, translationStop_none (mem_of_allAccessible h), busStop_none hp]

/-- The aligned access of lwarx and stwcx. to accessible bytes is not stopped. -/
theorem alignmentStop_none {s : State} {store : Bool} {ea : Word} {eas : List Word} (h : s.allAccessible store eas = true)
    (ha : misaligned ea = false) : alignmentStop s store ea eas = none := by
  simp [alignmentStop, translationStop_none (mem_of_allAccessible h), ha]

theorem loadDraws_zero {s : State} {parts : List (Word × Nat)} (n : Nat) (h : ∀ p ∈ parts, s.partFails false p = false) :
    s.loadDraws n parts = 0 := by
  have : parts.any (s.partFails false) = false := by
    rw [List.any_eq_false]
    intro p hp
    simp [h p hp]
  simp [State.loadDraws, this]

theorem mem_byteAddresses {ea : Word} {n k : Nat} (h : k < n) : ea + BitVec.ofNat 32 k ∈ byteAddresses ea n :=
  List.mem_map.2 ⟨k, List.mem_range.2 h, rfl⟩

/-! ## Loads -/

/-- A single load of accessible bytes reads storage. -/
theorem loadPart_accessible {s : State} {ea : Word} {n i : Nat} (log : List HostAccess) (k : Nat) (hn : 0 < n)
    (h : ∀ a ∈ byteAddresses ea n, s.accessible false a = true) :
    s.loadPart log k ea n i = s.byteAt false (ea + BitVec.ofNat 32 i) := by
  have h0 : s.accessible false ea = true := by simpa using h _ (mem_byteAddresses (k := 0) hn)
  simp [State.loadPart, State.byteAt, partFails_accessible (part := (ea, n)) h, isDevice_of_accessible h0]

/-- Byte i of an accessible operand, however it is accessed. -/
theorem loadByte_accessible {s : State} {ea : Word} {n i : Nat} (log : List HostAccess) (k : Nat) (hi : i < n)
    (h : s.allAccessible false (byteAddresses ea n) = true) :
    s.loadByte log k ea n i = s.byteAt false (ea + BitVec.ofNat 32 i) := by
  unfold State.loadByte
  split
  · exact loadPart_accessible _ _ (by omega) (mem_of_allAccessible h)
  · refine (loadPart_accessible _ k (by omega) ?_).trans (by simp)
    simpa [byteAddresses] using mem_of_allAccessible h _ (mem_byteAddresses hi)

/-- Loads that start in no device leave the host's log as it is. -/
theorem logLoads_accessible {s : State} (log : List HostAccess) {parts : List (Word × Nat)}
    (h : ∀ p ∈ parts, s.accessible false p.1 = true) : s.logLoads log parts = log := by
  unfold State.logLoads
  induction parts generalizing log with
  | nil => rfl
  | cons p ps ih =>
    have hp : s.logLoad log p = log := by simp [State.logLoad, State.deviceAnswers, isDevice_of_accessible (h p List.mem_cons_self)]
    rw [List.foldl_cons, hp]
    exact ih log fun q hq => h q (List.mem_cons_of_mem _ hq)

theorem operandParts_accessible {s : State} {ea : Word} {n : Nat} (hn : 0 < n)
    (h : s.allAccessible false (byteAddresses ea n) = true) : ∀ p ∈ operandParts ea n, s.accessible false p.1 = true := by
  intro p hp
  unfold operandParts at hp
  split at hp
  · obtain rfl := List.mem_singleton.1 hp
    simpa using mem_of_allAccessible h (ea + BitVec.ofNat 32 0) (List.mem_map.2 ⟨0, List.mem_range.2 hn, rfl⟩)
  · obtain ⟨a, ha, rfl⟩ := List.mem_map.1 hp
    exact mem_of_allAccessible h a ha

/-- A load of an accessible operand changes nothing outside the core. -/
theorem afterLoads_accessible {s : State} {ea : Word} {n : Nat} (hn : 0 < n)
    (h : s.allAccessible false (byteAddresses ea n) = true) : s.afterLoads (operandParts ea n) = s := by
  simp [State.afterLoads, logLoads_accessible _ (operandParts_accessible hn h)]

theorem wordOfByteList_foldl (bs : List Byte) (acc : Word) (n : Nat) (h : acc.toNat = n) (hn : n < 256 ^ (4 - bs.length))
    (hl : bs.length ≤ 4) :
    (bs.foldl (fun (acc : Word) (b : Byte) => (acc <<< 8) ||| b.setWidth 32) acc).toNat = bs.foldl (fun (n : Nat) (b : Byte) => 256 * n + b.toNat) n := by
  induction bs generalizing acc n with
  | nil => simpa using h
  | cons b bs ih =>
    simp only [List.foldl_cons, List.length_cons] at *
    have hpow : 256 ^ (4 - bs.length) = 256 * 256 ^ (4 - (bs.length + 1)) := by
      rw [← Nat.pow_succ']; congr 1; omega
    have h4 : 256 * 256 ^ (4 - (bs.length + 1)) ≤ 256 ^ 4 := by
      rw [← hpow]; exact Nat.pow_le_pow_right (by decide) (by omega)
    have hb : b.toNat < 256 := b.isLt
    refine ih _ _ ?_ ?_ (by omega)
    · rw [BitVec.toNat_or, BitVec.toNat_shiftLeft, BitVec.toNat_setWidth, h,
        Nat.mod_eq_of_lt (show b.toNat < 2 ^ 32 by omega), Nat.shiftLeft_eq,
        Nat.mod_eq_of_lt (show n * 2 ^ 8 < 2 ^ 32 by omega), Nat.mul_comm n, ← Nat.two_pow_add_eq_or_of_lt hb]
    · rw [hpow]; omega

theorem wordOfByteList_toNat (bs : List Byte) (h : bs.length ≤ 4) : (wordOfByteList bs).toNat = bigEndianNat bs :=
  wordOfByteList_foldl bs 0 0 rfl (Nat.pos_of_ne_zero (by simp)) h

/-- What a load of accessible bytes reads. -/
theorem memRead_toNat {s : State} {ea : Word} {n : Nat} (hn : n ≤ 4) (h : s.allAccessible false (byteAddresses ea n) = true)
    (log : List HostAccess) (k : Nat) : (s.memRead log k ea n).toNat = s.loaded ea n := by
  have hb : ((List.range n).map fun i => s.loadByte log (k + i) ea n i) = s.bytesAt false ea n := by
    simp only [State.bytesAt, byteAddresses, List.map_map]
    exact List.map_congr_left fun i hi => loadByte_accessible _ _ (List.mem_range.1 hi) h
  have hlen : (s.bytesAt false ea n).length = n := by simp [State.bytesAt, byteAddresses]
  unfold State.memRead State.loaded inOrder
  rw [hb]
  split <;> exact wordOfByteList_toNat _ (by simp [hlen, hn])

/-! ## Stores -/

theorem offsetMask_low (t : TlbEntry) (j : Nat) (hj : j < 10) : t.offsetMask.getLsbD j = true := by
  simp only [TlbEntry.offsetMask, BitVec.getLsbD_not, BitVec.getLsbD_shiftLeft]
  simp
  omega

/-- Translation keeps the ten low-order bits of an address: the smallest page is 1 KB. -/
theorem realData_low (s : State) (store : Bool) (ea : Word) (j : Nat) (hj : j < 10) :
    (s.realData store ea).getLsbD j = ea.getLsbD j := by
  have key : ∀ t : TlbEntry, (t.realAddress ea).getLsbD j = ea.getLsbD j := by
    intro t
    simp only [TlbEntry.realAddress, BitVec.getLsbD_or, BitVec.getLsbD_and, BitVec.getLsbD_not, offsetMask_low t j hj]
    simp
  unfold State.realData State.translateData
  split
  · rename_i h
    split at h
    · split at h
      · cases h
      · cases h
      · split at h
        · cases h
        · split at h
          · cases h
          · split at h
            · cases h
            · cases h; exact key _
    · split at h
      · cases h
      · cases h; rfl
  all_goals rfl

/-- Distinct bytes of one operand have distinct real addresses. -/
theorem realData_ne (s : State) (store : Bool) (ea : Word) {i j : Nat} (hi : i < 1024) (hj : j < 1024) (h : i ≠ j) :
    (s.realData store (ea + BitVec.ofNat 32 i)).toNat ≠ (s.realData store (ea + BitVec.ofNat 32 j)).toNat := by
  intro he
  have he' := BitVec.eq_of_toNat_eq he
  have hlow : (ea + BitVec.ofNat 32 i).extractLsb' 0 10 = (ea + BitVec.ofNat 32 j).extractLsb' 0 10 := by
    apply BitVec.eq_of_getLsbD_eq
    intro k hk
    simp only [BitVec.getLsbD_extractLsb', hk, decide_true, Bool.true_and, Nat.zero_add]
    rw [← realData_low s store (ea + BitVec.ofNat 32 i) k hk, ← realData_low s store (ea + BitVec.ofNat 32 j) k hk, he']
  have := congrArg BitVec.toNat hlow
  simp [BitVec.extractLsb'_toNat] at this
  omega

theorem read_storeBytes_other {s : State} {pairs : List (Word × Byte)} {a : Nat}
    (h : ∀ p ∈ pairs, a ≠ (s.realData true p.1).toNat) : Memory.read (s.storeBytes pairs) a = Memory.read s.mem a := by
  unfold State.storeBytes
  generalize s.mem = m
  induction pairs generalizing m with
  | nil => rfl
  | cons p ps ih =>
    simp only [List.foldl_cons]
    rw [ih fun q hq => h q (List.mem_cons_of_mem _ hq)]
    split
    · exact read_write_other _ _ (h p List.mem_cons_self)
    · rfl

theorem read_storeBytes_mem {s : State} {pairs : List (Word × Byte)} (hm : Memory.wf s.mem = true)
    (ha : ∀ p ∈ pairs, s.accessible true p.1 = true)
    (hd : pairs.Pairwise fun p q => (s.realData true p.1).toNat ≠ (s.realData true q.1).toNat) :
    ∀ p ∈ pairs, Memory.read (s.storeBytes pairs) (s.realData true p.1).toNat = p.2 := by
  have key : ∀ (m : List Host.Cell), Memory.wf m = true → ∀ p ∈ pairs, Memory.read (pairs.foldl (fun m p =>
      let ra := s.realData true p.1
      if s.isRam ra then Memory.write m ra.toNat p.2 else m) m) (s.realData true p.1).toNat = p.2 := by
    induction pairs with
    | nil => simp
    | cons q qs ih =>
      intro m hm p hp
      have hq := isRam_of_accessible (ha q List.mem_cons_self)
      simp only [List.foldl_cons, hq, if_true]
      have hd' := List.pairwise_cons.1 hd
      rcases List.mem_cons.1 hp with rfl | hp
      · have := @read_storeBytes_other { s with mem := Memory.write m (s.realData true p.1).toNat p.2 } qs
          (s.realData true p.1).toNat fun r hr => hd'.1 r hr
        exact this.trans (read_write_same hm _)
      · exact ih (fun r hr => ha r (List.mem_cons_of_mem _ hr)) hd'.2 _ (wf_write hm _ _) p hp
  exact key s.mem hm

theorem byteListOfWord_getElem (n : Nat) (v : Word) (i : Nat) (h : i < n) :
    (byteListOfWord n v)[i]? = some (v.extractLsb' (8 * (n - 1 - i)) 8) := by
  simp [byteListOfWord, h]

theorem byteOfNat_eq (n k : Nat) (v : Word) : (v.extractLsb' (8 * (n - 1 - k)) 8).toNat = byteOfNat n k v.toNat := by
  simp only [BitVec.extractLsb'_toNat, byteOfNat, Nat.shiftRight_eq_div_pow, Nat.pow_mul]

theorem orderedBytes_length (s : State) (ea : Word) (n : Nat) (v : Word) : (s.orderedBytes ea n v).length = n := by
  unfold State.orderedBytes
  split <;> simp [byteListOfWord]

/-- The pair of byte i of an operand. -/
theorem operandBytes_getElem (s : State) (ea : Word) (n : Nat) (v : Word) (i : Nat) (h : i < n) :
    (s.operandBytes ea n v)[i]? = some (ea + BitVec.ofNat 32 i,
      v.extractLsb' (8 * (n - 1 - (if s.littleData true ea then n - 1 - i else i))) 8) := by
  have hl : (byteListOfWord n v).length = n := by simp [byteListOfWord]
  unfold State.operandBytes State.orderedBytes
  rw [List.getElem?_zip_eq_some]
  constructor
  · simp [byteAddresses, h]
  · cases s.littleData true ea
    · simpa using byteListOfWord_getElem n v i h
    · simp only [if_true]
      rw [List.getElem?_reverse (by omega), hl]
      exact byteListOfWord_getElem n v _ (by omega)

theorem operandBytes_length (s : State) (ea : Word) (n : Nat) (v : Word) : (s.operandBytes ea n v).length = n := by
  simp [State.operandBytes, orderedBytes_length, byteAddresses]

/-- Stores that start in no device leave the host's log as it is. -/
theorem logStores_accessible {s : State} (log : List HostAccess) {parts : List (Word × List Byte)}
    (h : ∀ p ∈ parts, s.accessible true p.1 = true) : parts.foldl s.logStore log = log := by
  induction parts generalizing log with
  | nil => rfl
  | cons p ps ih =>
    have hp : s.logStore log p = log := by
      simp [State.logStore, State.deviceAnswers, isDevice_of_accessible (h p List.mem_cons_self)]
    rw [List.foldl_cons, hp]
    exact ih log fun q hq => h q (List.mem_cons_of_mem _ hq)

/-- A single store to accessible bytes goes to storage whole. -/
theorem storageBytes_accessible {s : State} {ea : Word} {bs : List Byte} {n : Nat} (hl : bs.length = n)
    (h0 : s.accessible true ea = true) (h : ∀ a ∈ byteAddresses ea n, s.accessible true a = true) :
    s.storageBytes (ea, bs) = (byteAddresses ea n).zip bs := by
  have hp := partFails_accessible (part := (ea, n)) h
  simp [State.storageBytes, hl, hp, isDevice_of_accessible h0]

theorem storageBytes_byteParts {s : State} {pairs : List (Word × Byte)} (h : ∀ p ∈ pairs, s.accessible true p.1 = true) :
    (byteParts pairs).flatMap s.storageBytes = pairs := by
  induction pairs with
  | nil => rfl
  | cons p ps ih =>
    have hp := h p List.mem_cons_self
    have hb : byteAddresses p.1 1 = [p.1] := by simp [byteAddresses]
    have h1 : s.storageBytes (p.1, [p.2]) = [p] :=
      storageBytes_accessible (n := 1) rfl hp (fun a ha => by rw [hb, List.mem_singleton] at ha; rw [ha]; exact hp) |>.trans (by rw [hb]; rfl)
    have h2 : (byteParts (p :: ps)).flatMap s.storageBytes = s.storageBytes (p.1, [p.2]) ++ (byteParts ps).flatMap s.storageBytes := rfl
    rw [h2, h1, ih fun q hq => h q (List.mem_cons_of_mem _ hq)]
    rfl

/-- Bytes stored one by one at accessible addresses reach storage only. -/
theorem afterStores_byteParts {s : State} {pairs : List (Word × Byte)} (h : ∀ p ∈ pairs, s.accessible true p.1 = true) :
    s.afterStores (byteParts pairs) = { s with mem := s.storeBytes pairs } := by
  have : (byteParts pairs).foldl s.logStore s.hostLog = s.hostLog := logStores_accessible _ fun q hq => by
    obtain ⟨p, hp, rfl⟩ := List.mem_map.1 hq
    exact h p hp
  simp [State.afterStores, this, storageBytes_byteParts h]

theorem operandBytes_address {s : State} {ea : Word} {n : Nat} {v : Word} {p : Word × Byte}
    (hp : p ∈ s.operandBytes ea n v) : p.1 ∈ byteAddresses ea n := (List.of_mem_zip (a := p.1) (b := p.2) hp).1

/-- An operand stored at accessible bytes reaches storage only. -/
theorem memWrite_accessible {s : State} {ea : Word} {n : Nat} {v : Word} (hn : 0 < n)
    (h : s.allAccessible true (byteAddresses ea n) = true) :
    s.memWrite ea n v = { s with mem := s.storeBytes (s.operandBytes ea n v) } := by
  have ha : ∀ p ∈ s.operandBytes ea n v, s.accessible true p.1 = true := fun p hp =>
    mem_of_allAccessible h _ (operandBytes_address hp)
  have h0 : s.accessible true ea = true := by simpa using mem_of_allAccessible h _ (mem_byteAddresses (k := 0) hn)
  unfold State.memWrite State.operandStores
  split
  · have hb : s.storageBytes (ea, s.orderedBytes ea n v) = s.operandBytes ea n v :=
      storageBytes_accessible (orderedBytes_length s ea n v) h0 (mem_of_allAccessible h)
    have hl := logStores_accessible s.hostLog (parts := [(ea, s.orderedBytes ea n v)]) (s := s) (by simpa using h0)
    simp only [State.afterStores, hl, List.flatMap_cons, List.flatMap_nil, List.append_nil, hb]
  · exact afterStores_byteParts ha

/-- What a store of an operand of accessible bytes leaves. -/
theorem stored_operandBytes {s : State} (hm : Memory.wf s.mem = true) {ea : Word} {n : Nat} {v : Word} (hn : n ≤ 4)
    (h : s.allAccessible true (byteAddresses ea n) = true) (t : State)
    (ht : t.mem = s.storeBytes (s.operandBytes ea n v)) : Stored ea n v.toNat s t := by
  have hidx : ∀ p ∈ s.operandBytes ea n v, ∃ i, i < n ∧ p.1 = ea + BitVec.ofNat 32 i := by
    intro p hp
    obtain ⟨i, hi, he⟩ := List.mem_iff_getElem.1 hp
    rw [operandBytes_length] at hi
    have h1 := operandBytes_getElem s ea n v i hi
    rw [List.getElem?_eq_getElem (by rw [operandBytes_length]; exact hi), he] at h1
    exact ⟨i, hi, by rw [Option.some.inj h1]⟩
  constructor
  · intro k hk
    have hget := operandBytes_getElem s ea n v k hk
    have hmem := List.mem_of_getElem? hget
    rw [ht, read_storeBytes_mem hm ?_ ?_ _ hmem, byteOfNat_eq]
    · intro p hp
      obtain ⟨i, hi, he⟩ := hidx p hp
      rw [he]; exact mem_of_allAccessible h _ (mem_byteAddresses hi)
    · rw [List.pairwise_iff_getElem]
      intro i j hi hj hij
      have hi' : i < n := by rwa [operandBytes_length] at hi
      have hj' : j < n := by rwa [operandBytes_length] at hj
      have h1 := operandBytes_getElem s ea n v i hi'
      have h2 := operandBytes_getElem s ea n v j hj'
      rw [List.getElem?_eq_getElem hi] at h1
      rw [List.getElem?_eq_getElem hj] at h2
      rw [Option.some.inj h1, Option.some.inj h2]
      exact realData_ne s true ea (by omega) (by omega) (by omega)
  · intro a ha
    rw [ht]
    refine read_storeBytes_other fun p hp => ?_
    obtain ⟨i, hi, he⟩ := hidx p hp
    rw [he]; exact ha i hi

/-! ## Bus errors and devices -/

theorem isHole_iff (s : State) (ra : Word) : s.isHole ra = true ↔ s.regionKind ra = some .hole := by simp [State.isHole]

theorem isDevice_iff (s : State) (ra : Word) :
    s.isDevice ra = true ↔ ∃ loads stores, s.regionKind ra = some (.device loads stores) := by
  unfold State.isDevice
  split <;> simp_all

theorem refusesWidth_iff (s : State) (store : Bool) (n : Nat) (ra : Word) : s.refusesWidth store n ra = true ↔
    ∃ loads stores, s.regionKind ra = some (.device loads stores) ∧ n ∉ (if store then stores else loads) := by
  unfold State.refusesWidth
  split <;> simp_all

/-- When a single access meets a bus error. -/
theorem partFails_iff (s : State) (store : Bool) (ea : Word) (n : Nat) (hn : 0 < n) :
    s.partFails store (ea, n) = true ↔ AccessFails s store ea n := by
  obtain ⟨m, rfl⟩ : ∃ m, n = m + 1 := ⟨n - 1, by omega⟩
  have hd : ((byteAddresses ea (m + 1)).map (s.realData store)).head? = some (s.realData store ea) := by
    simp [byteAddresses, List.range_succ_eq_map]
  have hl : ((byteAddresses ea (m + 1)).map (s.realData store)).length = m + 1 := by simp [byteAddresses]
  unfold State.partFails State.busError AccessFails
  rw [hd, hl, Bool.or_eq_true, Option.any_some, refusesWidth_iff, or_comm]
  simp [byteAddresses, isHole_iff]

/-- When the single access that moves byte i of an operand meets a bus error. -/
theorem failsAt_operand (s : State) (store : Bool) (ea : Word) {n i : Nat} (hi : i < n) : FailsAt s store ea n i ↔
    (if ea.toNat % n = 0 then s.partFails store (ea, n) else s.partFails store (ea + BitVec.ofNat 32 i, 1)) = true := by
  have h0 : i / n * n = 0 := by rw [Nat.div_eq_of_lt hi, Nat.zero_mul]
  unfold FailsAt
  simp only [h0, BitVec.add_zero]
  split
  · exact (partFails_iff s store ea n (by omega)).symm
  · exact (partFails_iff s store _ 1 (by omega)).symm

/-- The host sees every single load that a device answers, the latest first. -/
theorem logLoads_device {s : State} (log : List HostAccess) {parts : List (Word × Nat)}
    (h : ∀ p ∈ parts, s.deviceAnswers false p = true) :
    s.logLoads log parts = (parts.map fun p => HostAccess.load (s.realData false p.1) p.2).reverse ++ log := by
  unfold State.logLoads
  induction parts generalizing log with
  | nil => rfl
  | cons p ps ih =>
    rw [List.foldl_cons, ih _ fun q hq => h q (List.mem_cons_of_mem _ hq)]
    simp [State.logLoad, h p List.mem_cons_self]

theorem operandParts_loads (s : State) (ea : Word) (n : Nat) :
    (operandParts ea n).map (fun p => HostAccess.load (s.realData false p.1) p.2) = s.deviceLoads ea n := by
  unfold operandParts State.deviceLoads
  split <;> simp [byteAddresses, singleBytes]

/-- The single accesses of an operand in a device are answered by it. -/
theorem operandParts_device {s : State} {store : Bool} {ea : Word} {n : Nat} (hn : 0 < n) (h : s.allDevice store ea n) :
    ∀ p ∈ operandParts ea n, s.deviceAnswers store p = true := by
  intro p hp
  have h0 := h 0 hn
  rw [failsAt_operand s store ea hn] at h0
  unfold operandParts at hp
  split at hp
  · rename_i ha
    obtain rfl := List.mem_singleton.1 hp
    simpa [State.deviceAnswers, ha] using h0.2
  · rename_i ha
    obtain ⟨a, hm, rfl⟩ := List.mem_map.1 hp
    obtain ⟨k, hk, rfl⟩ := List.mem_map.1 hm
    have hk' := h k (List.mem_range.1 hk)
    rw [failsAt_operand s store ea (List.mem_range.1 hk)] at hk'
    simpa [State.deviceAnswers, ha] using hk'.2

/-- Byte i of an operand in a device is the device's answer. -/
theorem loadByte_device {s : State} {ea : Word} {n i : Nat} (before : List HostAccess) (k : Nat) (hi : i < n)
    (h : s.allDevice false ea n) :
    s.loadByte (before.reverse ++ s.hostLog) k ea n i = s.deviceAnswer before ea n i := by
  have hp := operandParts_device (by omega) h
  unfold State.loadByte State.deviceAnswer
  split
  · rename_i ha
    have h0 := hp (ea, n) (by simp [operandParts, ha])
    simp only [State.deviceAnswers, Bool.and_eq_true, Bool.not_eq_true'] at h0
    simp [State.loadPart, h0]
  · rename_i ha
    have hb : ∀ j, j < n → s.deviceAnswers false (ea + BitVec.ofNat 32 j, 1) = true := fun j hj =>
      hp _ (by
        simp only [operandParts, ha, if_false, singleBytes]
        exact List.mem_map.2 ⟨_, mem_byteAddresses hj, rfl⟩)
    rw [logLoads_device _ fun p hm => by
      obtain ⟨a, ha, rfl⟩ := List.mem_map.1 (show p ∈ singleBytes (byteAddresses ea i) from hm)
      obtain ⟨j, hj, rfl⟩ := List.mem_map.1 (show a ∈ byteAddresses ea i from ha)
      exact hb j (by have := List.mem_range.1 hj; omega)]
    have hi' := hb i hi
    simp only [State.deviceAnswers, Bool.and_eq_true, Bool.not_eq_true'] at hi'
    simp [State.loadPart, hi', byteAddresses, singleBytes, List.map_map, Function.comp_def]

/-- The host sees every single store that a device answers, the latest first. -/
theorem logStores_device {s : State} (log : List HostAccess) {parts : List (Word × List Byte)}
    (h : ∀ p ∈ parts, s.deviceAnswers true (p.1, p.2.length) = true) :
    parts.foldl s.logStore log = (parts.map fun p => HostAccess.store (s.realData true p.1) p.2).reverse ++ log := by
  induction parts generalizing log with
  | nil => rfl
  | cons p ps ih =>
    rw [List.foldl_cons, ih _ fun q hq => h q (List.mem_cons_of_mem _ hq)]
    simp [State.logStore, h p List.mem_cons_self]

/-- Single stores that devices answer leave storage as it is. -/
theorem storageBytes_device {s : State} {parts : List (Word × List Byte)}
    (h : ∀ p ∈ parts, s.deviceAnswers true (p.1, p.2.length) = true) : parts.flatMap s.storageBytes = [] := by
  rw [List.flatMap_eq_nil_iff]
  intro p hp
  have := h p hp
  simp only [State.deviceAnswers, Bool.and_eq_true] at this
  simp [State.storageBytes, this.1]

/-- What single stores that devices answer leave. -/
theorem afterStores_device {s : State} {parts : List (Word × List Byte)}
    (h : ∀ p ∈ parts, s.deviceAnswers true (p.1, p.2.length) = true) : s.afterStores parts = { s with
      hostLog := (parts.map fun p => HostAccess.store (s.realData true p.1) p.2).reverse ++ s.hostLog } := by
  simp [State.afterStores, logStores_device _ h, storageBytes_device h, State.storeBytes]

end Sys2Proof.Laws
end

