-- ==== Sys2Proof/Laws/Ops.lean ====
section
/-! SUPPORT. What each shared operation can do, said once: proofs cite these lemmas and unfold no operation. -/
namespace Sys2Proof.Laws
open Sys2Proof.Machine

/-! ## Results -/

theorem onlyUserResults_intro {s t : State} (h : { s with gpr := t.gpr, cr := t.cr, xer := t.xer, pc := t.pc, freeCount := t.freeCount } = t) :
    OnlyUserResults s t := h.symm

/-- Writing a result writes the register, the flags asked for and pc. -/
theorem results_writeResult (s : State) (rt : Reg) (r : Word) (ca ov : Option Bool) (rc : Bool) :
    Results rt r ca ov rc s (s.writeResult rt r ca ov rc) := by
  refine ⟨?_, ?_, xerBecomes _ _ _ _ rfl, ?_, rfl, rfl⟩
  · exact reg_setReg_same s rt r
  · intro q hq
    exact reg_setReg_other s rt q r (by simpa using hq)
  · cases rc
    · rfl
    · exact cr0Records_withCrField s _ r rfl

/-- An addition of three: the sum modulo 2^32, its carry and its overflow. -/
theorem addForm_results (rt : Reg) (a b : Word) (c carrying oe rc : Bool) (s : State) :
    ∃ t, addForm rt a b c carrying oe rc s = .next t ∧
      Results rt (a + b + bitWord c) (if carrying then some (decide (2 ^ 32 ≤ a.toNat + b.toNat + bitNat c)) else none)
        (ifOe oe (outsideSigned (a.toInt + b.toInt + bitNat c))) rc s t := by
  refine ⟨_, rfl, ?_⟩
  rw [← ovfAdd_eq]
  exact results_writeResult ..

theorem moveForm_results (rt : Reg) (r : Word) (s : State) :
    ∃ t, moveForm rt r s = .next t ∧ Results rt r none none false s t := ⟨_, rfl, results_writeResult ..⟩

theorem logicalForm_results (ra : Reg) (v : Word) (rc : Bool) (s : State) :
    ∃ t, logicalForm ra v rc s = .next t ∧ Results ra v none none rc s t := ⟨_, rfl, results_writeResult ..⟩

theorem multiplyForm_results (rt : Reg) (v : Word) (rc : Bool) (s : State) :
    ∃ t, multiplyForm rt v rc s = .next t ∧ Results rt v none none rc s t := ⟨_, rfl, results_writeResult ..⟩

theorem rotateForm_results (ra : Reg) (v : Word) (rc : Bool) (s : State) :
    ∃ t, rotateForm ra v rc s = .next t ∧ Results ra v none none rc s t := ⟨_, rfl, results_writeResult ..⟩

theorem shiftAlgebraicForm_results (ra : Reg) (v : Word) (ca rc : Bool) (s : State) :
    ∃ t, shiftAlgebraicForm ra v ca rc s = .next t ∧ Results ra v (some ca) none rc s t := ⟨_, rfl, results_writeResult ..⟩

/-! ## Instructions without a record bit -/

theorem crKept_of {nr : Bool} {s t : State} (h : t.cr = (s.markCr0 nr).cr) : CrKept nr s t := by
  constructor
  · intro hn; subst hn; exact h
  · intro k hk
    rw [h]
    cases nr
    · rfl
    · show crField (withCrField s.cr 0 _) k = _
      rw [crField_withCrField, if_neg hk]

theorem crKept_finish (s : State) (nr : Bool) : CrKept nr s (s.finish nr) := crKept_of rfl

theorem onlyAdvances_finish (s : State) (nr : Bool) : OnlyAdvances nr s (s.finish nr) := by
  refine ⟨?_, crKept_finish s nr⟩
  cases nr <;> rfl

/-! ## Interrupts -/

/-- Taking an interrupt. -/
theorem takes_takeInterrupt (k : Interrupt) (saved : Word) (s : State) : Takes k saved s (takeInterrupt k saved s) := by
  refine ⟨takeInterrupt_entry .., takeInterrupt_pc .., ?_, ?_, ?_⟩
  · rw [takeInterrupt_msr]; cases k <;> rfl
  · cases k <;> simp [takeInterrupt, Interrupt.critical]
  · cases k <;> rfl

/-- The same, after the syndrome registers have been written. -/
theorem takes_of_agree {k : Interrupt} {saved : Word} {s u : State}
    (h : u = { s with esr := u.esr, dear := u.dear, dbsr := u.dbsr }) : Takes k saved s (takeInterrupt k saved u) := by
  rw [h]
  refine ⟨takeInterrupt_entry .., takeInterrupt_pc .., ?_, ?_, ?_⟩
  · rw [takeInterrupt_msr]; cases k <;> rfl
  · cases k <;> simp [takeInterrupt, Interrupt.critical]
  · cases k <;> rfl

theorem programInterrupt_takes (c : ProgramCause) (s : State) :
    Takes .program s.pc s (programInterrupt c s) ∧ Syndrome c.bits s (programInterrupt c s) :=
  ⟨takes_of_agree rfl, rfl⟩

/-- A privileged instruction in problem state, and in supervisor state. -/
theorem privileged_problem {s : State} (h : s.prBit = true) (r : Result) :
    privileged s r = .next (programInterrupt .privileged s) := by simp [privileged, h]

theorem privileged_supervisor {s : State} (h : s.prBit = false) (r : Result) : privileged s r = r := by
  simp [privileged, h]

theorem unlessStopped_none (r : Result) : unlessStopped none r = r := rfl

/-! ## Register moves and CR fields -/

/-- A register written at the end of an instruction without a record bit. -/
theorem loads_setReg (s : State) (rt : Reg) (v : Word) (nr : Bool) : Loads rt v nr s ((s.setReg rt v).finish nr) := by
  refine ⟨by simp, ⟨?_, crKept_of (by cases nr <;> rfl), by cases nr <;> rfl⟩, by cases nr <;> rfl⟩
  intro r hr
  simp only [List.mem_singleton] at hr
  simp [reg_setReg_other, hr]

/-- A register that becomes a free value. -/
theorem onlyMoves_drawn (s : State) (rt : Reg) (v : Word) (n : Nat) (nr : Bool) :
    OnlyMoves [rt] nr s (((s.setReg rt v).drawn n).finish nr) ∧ (((s.setReg rt v).drawn n).finish nr).mem = s.mem := by
  refine ⟨⟨?_, ⟨?_, ?_⟩, by cases nr <;> rfl⟩, by cases nr <;> rfl⟩
  · intro r hr
    simp only [List.mem_singleton] at hr
    simp [reg_setReg_other, hr]
  · intro hn; subst hn; rfl
  · intro k hk
    cases nr
    · rfl
    · show crField (withCrField s.cr 0 _) k = _
      rw [crField_withCrField, if_neg hk]

/-- A CR field written at the end of an instruction without a record bit. -/
theorem fieldBecomes_finish (s : State) (bf : BitVec 3) (v : BitVec 4) (nr : Bool) :
    FieldBecomes bf v nr s (State.finish { s with cr := withCrField s.cr bf v } nr) ∧
      OnlyCr s (State.finish { s with cr := withCrField s.cr bf v } nr) := by
  have key : ∀ k, (nr = false ∨ k ≠ 0) →
      crField (State.finish { s with cr := withCrField s.cr bf v } nr).cr k = crField (withCrField s.cr bf v) k := by
    intro k hk
    cases nr
    · rfl
    · show crField (withCrField (withCrField s.cr bf v) 0 _) k = _
      rw [crField_withCrField, if_neg (by simpa using hk)]
  refine ⟨⟨fun h => ?_, fun k hk hn => ?_⟩, by cases nr <;> rfl⟩
  · rw [key _ h, crField_withCrField, if_pos rfl]
  · rw [key _ hn, crField_withCrField, if_neg hk]

/-! ## Arithmetic forms -/

/-- A signed accumulate, before its sum is read as a number. -/
theorem accumulateSigned_results (rt : Reg) (p : Word) (saturate oe rc : Bool) (s : State) :
    ∃ t, accumulateSigned rt p saturate oe rc s = .next t ∧
      Results rt (if saturate && ovfAdd p (s.reg rt) (p + s.reg rt) then (if (s.reg rt).msb then 0x80000000 else 0x7FFFFFFF)
        else p + s.reg rt) none (ifOe oe (ovfAdd p (s.reg rt) (p + s.reg rt))) rc s t :=
  ⟨_, rfl, results_writeResult ..⟩

/-- An unsigned accumulate. -/
theorem accumulateUnsigned_results (rt : Reg) (p : Word) (saturate oe rc : Bool) (s : State) :
    ∃ t, accumulateUnsigned rt p saturate oe rc s = .next t ∧
      Results rt (if saturate && carry p (s.reg rt) false then 0xFFFFFFFF else p + s.reg rt) none
        (ifOe oe (carry p (s.reg rt) false)) rc s t :=
  ⟨_, rfl, results_writeResult ..⟩

/-- A divide whose quotient exists. -/
theorem divideForm_results (rt : Reg) (q : Word) (oe rc : Bool) (s : State) :
    ∃ t, divideForm rt (some q) oe rc s = .next t ∧ Results rt q none (ifOe oe false) rc s t :=
  ⟨_, rfl, results_writeResult ..⟩

/-- A divide without one: RT and CR0[LT, GT, EQ] are free, OV and SO are set if OE = 1. -/
theorem divideForm_undefined (rt : Reg) (oe rc : Bool) (s : State) :
    ∃ t, divideForm rt none oe rc s = .next t ∧ RegsKept [rt] s t ∧ XerBecomes none (ifOe oe true) s t ∧
      (rc = false → t.cr = s.cr) ∧ (∀ k, k ≠ 0 → crField t.cr k = crField s.cr k) ∧ t.pc = s.pc + 4 ∧ OnlyUserResults s t := by
  refine ⟨_, rfl, ?_, xerBecomes _ _ _ _ rfl, ?_, ?_, rfl, rfl⟩
  · intro q hq
    exact reg_setReg_other s rt q _ (by simpa using hq)
  · intro h; subst h; rfl
  · intro k hk
    cases rc
    · rfl
    · show crField (withCrField s.cr 0 _) k = _
      rw [crField_withCrField, if_neg hk]

/-! ## Branches -/

/-- A conditional branch, but bcctr with BO[2] = 0. -/
theorem branchForm_next (bo bi : BitVec 5) (target : Word → Word) (lk : Bool) (s : State) :
    branchForm bo bi target lk s = .next { s with
      ctr := counterAfter bo s.ctr
      lr := s.linkAfter lk
      pc := if branchTaken bo bi (counterAfter bo s.ctr) s.cr then target (counterAfter bo s.ctr) else s.pc + 4 } := rfl

/-- bcctr with BO[2] = 0: the target is the decremented CTR, and CTR is free. -/
theorem execBcctr_free {bo : BitVec 5} (h : bo.getMsbD 2 = false) (bi : BitVec 5) (lk : Bool) (s : State) :
    execBcctr bo bi lk s = .next { s with
      ctr := s.free 0
      lr := s.linkAfter lk
      pc := if branchTaken bo bi (s.ctr - 1) s.cr then wordAligned (s.ctr - 1) else s.pc + 4
      freeCount := s.freeCount + 1 } := by simp [execBcctr, h]

theorem execBcctr_kept {bo : BitVec 5} (h : bo.getMsbD 2 = true) (bi : BitVec 5) (lk : Bool) (s : State) :
    execBcctr bo bi lk s = branchForm bo bi wordAligned lk s := by simp [execBcctr, h]

/-! ## Registers that become free -/

/-- Only the named registers and the count of free values change. -/
theorem freeRegs_eq (rs : List Reg) (s : State) :
    s.freeRegs rs = { s with gpr := (s.freeRegs rs).gpr, freeCount := s.freeCount + rs.length } := by
  induction rs generalizing s with
  | nil => rfl
  | cons r rs ih =>
    refine (ih ((s.setReg r (s.free 0)).drawn 1)).trans ?_
    have hc : s.freeCount + 1 + rs.length = s.freeCount + (r :: rs).length := by
      rw [List.length_cons]; omega
    show State.mk .. = State.mk ..
    simp only [State.mk.injEq, true_and, State.drawn, State.setReg, and_true]
    exact ⟨rfl, hc⟩

theorem reg_freeRegs {rs : List Reg} {q : Reg} (hq : q ∉ rs) (s : State) : (s.freeRegs rs).reg q = s.reg q := by
  induction rs generalizing s with
  | nil => rfl
  | cons r rs ih =>
    show (State.freeRegs _ rs).reg q = _
    rw [ih (fun h => hq (List.mem_cons_of_mem _ h)), reg_drawn, reg_setReg_other]
    exact fun e => hq (e ▸ List.mem_cons_self)

/-! ## Storage forms -/

/-- A load of accessible bytes. -/
theorem loadForm_next {rt : Reg} {ea : Word} {n : Nat} {extend : Word → Word} {nr : Bool} {s : State} (hn : 0 < n)
    (h : s.allAccessible false (byteAddresses ea n) = true) :
    loadForm rt ea n extend nr s = .next ((s.setReg rt (extend (s.memRead s.hostLog 0 ea n))).finish nr) := by
  simp only [loadForm, dataStop_none h (operandParts_partFails h), unlessStopped_none, loadDraws_zero n (operandParts_partFails h), afterLoads_accessible hn h]; rfl

/-- A store of accessible bytes. -/
theorem storeForm_next {ea : Word} {n : Nat} {v : Word} {nr : Bool} {s : State} (hn : 0 < n)
    (h : s.allAccessible true (byteAddresses ea n) = true) :
    storeForm ea n v nr s = .next ({ s with mem := s.storeBytes (s.operandBytes ea n v) }.finish nr) := by
  simp only [storeForm, dataStop_none h (operandParts_partFails h), unlessStopped_none, memWrite_accessible hn h]

theorem storeUpdateForm_next {ra : Reg} {ea : Word} {n : Nat} {v : Word} {nr : Bool} {s : State} (hn : 0 < n)
    (h : s.allAccessible true (byteAddresses ea n) = true) (hr : ra ≠ 0) :
    storeUpdateForm ra ea n v nr s =
      .next ((State.setReg { s with mem := s.storeBytes (s.operandBytes ea n v) } ra ea).finish nr) := by
  simp only [storeUpdateForm, dataStop_none h (operandParts_partFails h), unlessStopped_none, memWrite_accessible hn h, hr, if_false]

theorem loadUpdateForm_next {rt ra : Reg} {ea : Word} {n : Nat} {extend : Word → Word} {nr : Bool} {s : State} (hn : 0 < n)
    (h : s.allAccessible false (byteAddresses ea n) = true) (h0 : ra ≠ 0) (ht : ra ≠ rt) :
    loadUpdateForm rt ra ea n extend nr s =
      .next (((s.setReg rt (extend (s.memRead s.hostLog 0 ea n))).setReg ra ea).finish nr) := by
  simp only [loadUpdateForm, dataStop_none h (operandParts_partFails h), unlessStopped_none, loadDraws_zero n (operandParts_partFails h), afterLoads_accessible hn h, h0, ht,
    or_self, if_false]; rfl

/-- A cache operation whose operand passes translation and protection only advances. -/
theorem cacheForm_next {store : Bool} {ea : Word} {nr : Bool} {s : State} (h : s.accessible store ea = true) :
    cacheForm store ea nr s = .next (s.finish nr) := by
  simp only [cacheForm, translationStopAt_none h, unlessStopped_none]

/-! ## Data value compares -/

/-- Outside internal debug mode the data compares change nothing. -/
theorem underCompares_off {i : Instr} {s t : State} (h : s.internalDebug = false) : underCompares i s t = t := by
  unfold underCompares
  split
  · rfl
  · simp [h]

/-- What the data compares may change of an instruction's result. -/
theorem underCompares_frame (i : Instr) (s t : State) : underCompares i s t = { t with
    gpr := (underCompares i s t).gpr, mem := (underCompares i s t).mem, hostLog := (underCompares i s t).hostLog,
    freeCount := (underCompares i s t).freeCount } := by
  unfold underCompares
  split
  · rfl
  · split
    · dsimp only
      split
      · rfl
      · split
        · rfl
        · unfold State.withoutBytesFrom
          rw [freeRegs_eq]
          rfl
    · rfl

/-- The data compares keep storage canonical. -/
theorem wf_underCompares (i : Instr) (s : State) {t : State} (ht : Memory.wf t.mem = true) :
    Memory.wf (underCompares i s t).mem = true := by
  have key : ∀ (ras : List Word) (m : List Host.Cell), Memory.wf m = true →
      Memory.wf (ras.foldl (fun m ra => Memory.write m ra.toNat (Memory.read s.mem ra.toNat)) m) = true := by
    intro ras
    induction ras with
    | nil => exact fun m hm => hm
    | cons ra ras ih => exact fun m hm => ih _ (wf_write hm _ _)
  unfold underCompares
  split
  · exact ht
  · split
    · dsimp only
      split
      · exact ht
      · split
        · exact ht
        · unfold State.withoutBytesFrom
          rw [freeRegs_eq]
          dsimp only
          split
          · exact key _ _ ht
          · exact ht
    · exact ht

end Sys2Proof.Laws
end

