-- ==== Sys2Proof/Laws/PerInstr.lean ====
section
/-! SUPPORT. The family RoundTrip: decoding the word of an instruction gives the instruction back, for each constructor of
`Instr` with every operand at every value (30_encoding.md R200 to R211). -/
set_option Elab.async false
namespace Sys2Proof.Laws

/-- The word of an instruction decodes to the instruction. -/
def RoundTrip.Statement (i : Instr) : Prop := decodeWord (encodeWord i) = .ok i

theorem RoundTrip.lbz (rt : Reg) (ra : Reg) (d : BitVec 16) : RoundTrip.Statement (.lbz rt ra d) := by
  exact (decodeWord_primary _ 34#6 _ (opcd_dForm ..) rfl).trans (by simp)

theorem RoundTrip.lbzu (rt : Reg) (ra : Reg) (d : BitVec 16) : RoundTrip.Statement (.lbzu rt ra d) := by
  exact (decodeWord_primary _ 35#6 _ (opcd_dForm ..) rfl).trans (by simp)

theorem RoundTrip.lbzux (rt : Reg) (ra : Reg) (rb : Reg) (nr : Bool) : RoundTrip.Statement (.lbzux rt ra rb nr) := by
  exact (decodeWord_group31X _ 119#10 _ (opcd_xForm ..) (xo10_xForm ..) rfl).trans (by simp)

theorem RoundTrip.lbzx (rt : Reg) (ra : Reg) (rb : Reg) (nr : Bool) : RoundTrip.Statement (.lbzx rt ra rb nr) := by
  exact (decodeWord_group31X _ 87#10 _ (opcd_xForm ..) (xo10_xForm ..) rfl).trans (by simp)

theorem RoundTrip.lha (rt : Reg) (ra : Reg) (d : BitVec 16) : RoundTrip.Statement (.lha rt ra d) := by
  exact (decodeWord_primary _ 42#6 _ (opcd_dForm ..) rfl).trans (by simp)

theorem RoundTrip.lhau (rt : Reg) (ra : Reg) (d : BitVec 16) : RoundTrip.Statement (.lhau rt ra d) := by
  exact (decodeWord_primary _ 43#6 _ (opcd_dForm ..) rfl).trans (by simp)

theorem RoundTrip.lhaux (rt : Reg) (ra : Reg) (rb : Reg) (nr : Bool) : RoundTrip.Statement (.lhaux rt ra rb nr) := by
  exact (decodeWord_group31X _ 375#10 _ (opcd_xForm ..) (xo10_xForm ..) rfl).trans (by simp)

theorem RoundTrip.lhax (rt : Reg) (ra : Reg) (rb : Reg) (nr : Bool) : RoundTrip.Statement (.lhax rt ra rb nr) := by
  exact (decodeWord_group31X _ 343#10 _ (opcd_xForm ..) (xo10_xForm ..) rfl).trans (by simp)

theorem RoundTrip.lhz (rt : Reg) (ra : Reg) (d : BitVec 16) : RoundTrip.Statement (.lhz rt ra d) := by
  exact (decodeWord_primary _ 40#6 _ (opcd_dForm ..) rfl).trans (by simp)

theorem RoundTrip.lhzu (rt : Reg) (ra : Reg) (d : BitVec 16) : RoundTrip.Statement (.lhzu rt ra d) := by
  exact (decodeWord_primary _ 41#6 _ (opcd_dForm ..) rfl).trans (by simp)

theorem RoundTrip.lhzux (rt : Reg) (ra : Reg) (rb : Reg) (nr : Bool) : RoundTrip.Statement (.lhzux rt ra rb nr) := by
  exact (decodeWord_group31X _ 311#10 _ (opcd_xForm ..) (xo10_xForm ..) rfl).trans (by simp)

theorem RoundTrip.lhzx (rt : Reg) (ra : Reg) (rb : Reg) (nr : Bool) : RoundTrip.Statement (.lhzx rt ra rb nr) := by
  exact (decodeWord_group31X _ 279#10 _ (opcd_xForm ..) (xo10_xForm ..) rfl).trans (by simp)

theorem RoundTrip.lwz (rt : Reg) (ra : Reg) (d : BitVec 16) : RoundTrip.Statement (.lwz rt ra d) := by
  exact (decodeWord_primary _ 32#6 _ (opcd_dForm ..) rfl).trans (by simp)

theorem RoundTrip.lwzu (rt : Reg) (ra : Reg) (d : BitVec 16) : RoundTrip.Statement (.lwzu rt ra d) := by
  exact (decodeWord_primary _ 33#6 _ (opcd_dForm ..) rfl).trans (by simp)

theorem RoundTrip.lwzux (rt : Reg) (ra : Reg) (rb : Reg) (nr : Bool) : RoundTrip.Statement (.lwzux rt ra rb nr) := by
  exact (decodeWord_group31X _ 55#10 _ (opcd_xForm ..) (xo10_xForm ..) rfl).trans (by simp)

theorem RoundTrip.lwzx (rt : Reg) (ra : Reg) (rb : Reg) (nr : Bool) : RoundTrip.Statement (.lwzx rt ra rb nr) := by
  exact (decodeWord_group31X _ 23#10 _ (opcd_xForm ..) (xo10_xForm ..) rfl).trans (by simp)

theorem RoundTrip.stb (rs : Reg) (ra : Reg) (d : BitVec 16) : RoundTrip.Statement (.stb rs ra d) := by
  exact (decodeWord_primary _ 38#6 _ (opcd_dForm ..) rfl).trans (by simp)

theorem RoundTrip.stbu (rs : Reg) (ra : Reg) (d : BitVec 16) : RoundTrip.Statement (.stbu rs ra d) := by
  exact (decodeWord_primary _ 39#6 _ (opcd_dForm ..) rfl).trans (by simp)

theorem RoundTrip.stbux (rs : Reg) (ra : Reg) (rb : Reg) (nr : Bool) : RoundTrip.Statement (.stbux rs ra rb nr) := by
  exact (decodeWord_group31X _ 247#10 _ (opcd_xForm ..) (xo10_xForm ..) rfl).trans (by simp)

theorem RoundTrip.stbx (rs : Reg) (ra : Reg) (rb : Reg) (nr : Bool) : RoundTrip.Statement (.stbx rs ra rb nr) := by
  exact (decodeWord_group31X _ 215#10 _ (opcd_xForm ..) (xo10_xForm ..) rfl).trans (by simp)

theorem RoundTrip.sth (rs : Reg) (ra : Reg) (d : BitVec 16) : RoundTrip.Statement (.sth rs ra d) := by
  exact (decodeWord_primary _ 44#6 _ (opcd_dForm ..) rfl).trans (by simp)

theorem RoundTrip.sthu (rs : Reg) (ra : Reg) (d : BitVec 16) : RoundTrip.Statement (.sthu rs ra d) := by
  exact (decodeWord_primary _ 45#6 _ (opcd_dForm ..) rfl).trans (by simp)

theorem RoundTrip.sthux (rs : Reg) (ra : Reg) (rb : Reg) (nr : Bool) : RoundTrip.Statement (.sthux rs ra rb nr) := by
  exact (decodeWord_group31X _ 439#10 _ (opcd_xForm ..) (xo10_xForm ..) rfl).trans (by simp)

theorem RoundTrip.sthx (rs : Reg) (ra : Reg) (rb : Reg) (nr : Bool) : RoundTrip.Statement (.sthx rs ra rb nr) := by
  exact (decodeWord_group31X _ 407#10 _ (opcd_xForm ..) (xo10_xForm ..) rfl).trans (by simp)

theorem RoundTrip.stw (rs : Reg) (ra : Reg) (d : BitVec 16) : RoundTrip.Statement (.stw rs ra d) := by
  exact (decodeWord_primary _ 36#6 _ (opcd_dForm ..) rfl).trans (by simp)

theorem RoundTrip.stwu (rs : Reg) (ra : Reg) (d : BitVec 16) : RoundTrip.Statement (.stwu rs ra d) := by
  exact (decodeWord_primary _ 37#6 _ (opcd_dForm ..) rfl).trans (by simp)

theorem RoundTrip.stwux (rs : Reg) (ra : Reg) (rb : Reg) (nr : Bool) : RoundTrip.Statement (.stwux rs ra rb nr) := by
  exact (decodeWord_group31X _ 183#10 _ (opcd_xForm ..) (xo10_xForm ..) rfl).trans (by simp)

theorem RoundTrip.stwx (rs : Reg) (ra : Reg) (rb : Reg) (nr : Bool) : RoundTrip.Statement (.stwx rs ra rb nr) := by
  exact (decodeWord_group31X _ 151#10 _ (opcd_xForm ..) (xo10_xForm ..) rfl).trans (by simp)

theorem RoundTrip.lhbrx (rt : Reg) (ra : Reg) (rb : Reg) (nr : Bool) : RoundTrip.Statement (.lhbrx rt ra rb nr) := by
  exact (decodeWord_group31X _ 790#10 _ (opcd_xForm ..) (xo10_xForm ..) rfl).trans (by simp)

theorem RoundTrip.lwbrx (rt : Reg) (ra : Reg) (rb : Reg) (nr : Bool) : RoundTrip.Statement (.lwbrx rt ra rb nr) := by
  exact (decodeWord_group31X _ 534#10 _ (opcd_xForm ..) (xo10_xForm ..) rfl).trans (by simp)

theorem RoundTrip.sthbrx (rs : Reg) (ra : Reg) (rb : Reg) (nr : Bool) : RoundTrip.Statement (.sthbrx rs ra rb nr) := by
  exact (decodeWord_group31X _ 918#10 _ (opcd_xForm ..) (xo10_xForm ..) rfl).trans (by simp)

theorem RoundTrip.stwbrx (rs : Reg) (ra : Reg) (rb : Reg) (nr : Bool) : RoundTrip.Statement (.stwbrx rs ra rb nr) := by
  exact (decodeWord_group31X _ 662#10 _ (opcd_xForm ..) (xo10_xForm ..) rfl).trans (by simp)

theorem RoundTrip.lmw (rt : Reg) (ra : Reg) (d : BitVec 16) : RoundTrip.Statement (.lmw rt ra d) := by
  exact (decodeWord_primary _ 46#6 _ (opcd_dForm ..) rfl).trans (by simp)

theorem RoundTrip.stmw (rs : Reg) (ra : Reg) (d : BitVec 16) : RoundTrip.Statement (.stmw rs ra d) := by
  exact (decodeWord_primary _ 47#6 _ (opcd_dForm ..) rfl).trans (by simp)

theorem RoundTrip.lswi (rt : Reg) (ra : Reg) (nb : BitVec 5) (nr : Bool) : RoundTrip.Statement (.lswi rt ra nb nr) := by
  exact (decodeWord_group31X _ 597#10 _ (opcd_xForm ..) (xo10_xForm ..) rfl).trans (by simp)

theorem RoundTrip.lswx (rt : Reg) (ra : Reg) (rb : Reg) (nr : Bool) : RoundTrip.Statement (.lswx rt ra rb nr) := by
  exact (decodeWord_group31X _ 533#10 _ (opcd_xForm ..) (xo10_xForm ..) rfl).trans (by simp)

theorem RoundTrip.stswi (rs : Reg) (ra : Reg) (nb : BitVec 5) (nr : Bool) : RoundTrip.Statement (.stswi rs ra nb nr) := by
  exact (decodeWord_group31X _ 725#10 _ (opcd_xForm ..) (xo10_xForm ..) rfl).trans (by simp)

theorem RoundTrip.stswx (rs : Reg) (ra : Reg) (rb : Reg) (nr : Bool) : RoundTrip.Statement (.stswx rs ra rb nr) := by
  exact (decodeWord_group31X _ 661#10 _ (opcd_xForm ..) (xo10_xForm ..) rfl).trans (by simp)

theorem RoundTrip.lwarx (rt : Reg) (ra : Reg) (rb : Reg) (nr : Bool) : RoundTrip.Statement (.lwarx rt ra rb nr) := by
  exact (decodeWord_group31X _ 20#10 _ (opcd_xForm ..) (xo10_xForm ..) rfl).trans (by simp)

theorem RoundTrip.stwcx (rs : Reg) (ra : Reg) (rb : Reg) : RoundTrip.Statement (.stwcx rs ra rb) := by
  have h : findRow (31#6).toNat primaryTable = none := rfl
  have h1 : findRow (150#10).toNat group31X = none := rfl
  have h2 : findRow (150#9).toNat group31XO = none := rfl
  simp only [RoundTrip.Statement, encodeWord, decodeWord, decode31, opcd_xForm, xo10_xForm, xo9_xForm, h, h1,
    show (150#10).extractLsb' 0 9 = 150#9 from rfl, h2, bit31_xForm, f06_xForm, f11_xForm, f16_xForm]
  rfl

theorem RoundTrip.add (rt : Reg) (ra : Reg) (rb : Reg) (oe : Bool) (rc : Bool) : RoundTrip.Statement (.add rt ra rb oe rc) := by
  cases oe <;> exact (decodeWord_group31XO _ _ _ (opcd_xForm ..) (xo10_xForm ..) rfl ((congrArg (findRow ·.toNat group31XO) (xo9_xForm ..)).trans rfl)).trans (by simp)

theorem RoundTrip.addc (rt : Reg) (ra : Reg) (rb : Reg) (oe : Bool) (rc : Bool) : RoundTrip.Statement (.addc rt ra rb oe rc) := by
  cases oe <;> exact (decodeWord_group31XO _ _ _ (opcd_xForm ..) (xo10_xForm ..) rfl ((congrArg (findRow ·.toNat group31XO) (xo9_xForm ..)).trans rfl)).trans (by simp)

theorem RoundTrip.adde (rt : Reg) (ra : Reg) (rb : Reg) (oe : Bool) (rc : Bool) : RoundTrip.Statement (.adde rt ra rb oe rc) := by
  cases oe <;> exact (decodeWord_group31XO _ _ _ (opcd_xForm ..) (xo10_xForm ..) rfl ((congrArg (findRow ·.toNat group31XO) (xo9_xForm ..)).trans rfl)).trans (by simp)

theorem RoundTrip.addi (rt : Reg) (ra : Reg) (im : BitVec 16) : RoundTrip.Statement (.addi rt ra im) := by
  exact (decodeWord_primary _ 14#6 _ (opcd_dForm ..) rfl).trans (by simp)

theorem RoundTrip.addic (rt : Reg) (ra : Reg) (im : BitVec 16) : RoundTrip.Statement (.addic rt ra im) := by
  exact (decodeWord_primary _ 12#6 _ (opcd_dForm ..) rfl).trans (by simp)

theorem RoundTrip.addicRc (rt : Reg) (ra : Reg) (im : BitVec 16) : RoundTrip.Statement (.addicRc rt ra im) := by
  exact (decodeWord_primary _ 13#6 _ (opcd_dForm ..) rfl).trans (by simp)

theorem RoundTrip.addis (rt : Reg) (ra : Reg) (im : BitVec 16) : RoundTrip.Statement (.addis rt ra im) := by
  exact (decodeWord_primary _ 15#6 _ (opcd_dForm ..) rfl).trans (by simp)

theorem RoundTrip.addme (rt : Reg) (ra : Reg) (oe : Bool) (rc : Bool) : RoundTrip.Statement (.addme rt ra oe rc) := by
  cases oe <;> exact (decodeWord_group31XO _ _ _ (opcd_xForm ..) (xo10_xForm ..) rfl ((congrArg (findRow ·.toNat group31XO) (xo9_xForm ..)).trans rfl)).trans (by simp)

theorem RoundTrip.addze (rt : Reg) (ra : Reg) (oe : Bool) (rc : Bool) : RoundTrip.Statement (.addze rt ra oe rc) := by
  cases oe <;> exact (decodeWord_group31XO _ _ _ (opcd_xForm ..) (xo10_xForm ..) rfl ((congrArg (findRow ·.toNat group31XO) (xo9_xForm ..)).trans rfl)).trans (by simp)

theorem RoundTrip.divw (rt : Reg) (ra : Reg) (rb : Reg) (oe : Bool) (rc : Bool) : RoundTrip.Statement (.divw rt ra rb oe rc) := by
  cases oe <;> exact (decodeWord_group31XO _ _ _ (opcd_xForm ..) (xo10_xForm ..) rfl ((congrArg (findRow ·.toNat group31XO) (xo9_xForm ..)).trans rfl)).trans (by simp)

theorem RoundTrip.divwu (rt : Reg) (ra : Reg) (rb : Reg) (oe : Bool) (rc : Bool) : RoundTrip.Statement (.divwu rt ra rb oe rc) := by
  cases oe <;> exact (decodeWord_group31XO _ _ _ (opcd_xForm ..) (xo10_xForm ..) rfl ((congrArg (findRow ·.toNat group31XO) (xo9_xForm ..)).trans rfl)).trans (by simp)

theorem RoundTrip.mulhw (rt : Reg) (ra : Reg) (rb : Reg) (rc : Bool) : RoundTrip.Statement (.mulhw rt ra rb rc) := by
  exact (decodeWord_group31XO _ _ _ (opcd_xForm ..) (xo10_xForm ..) rfl ((congrArg (findRow ·.toNat group31XO) (xo9_xForm ..)).trans rfl)).trans (by simp)

theorem RoundTrip.mulhwu (rt : Reg) (ra : Reg) (rb : Reg) (rc : Bool) : RoundTrip.Statement (.mulhwu rt ra rb rc) := by
  exact (decodeWord_group31XO _ _ _ (opcd_xForm ..) (xo10_xForm ..) rfl ((congrArg (findRow ·.toNat group31XO) (xo9_xForm ..)).trans rfl)).trans (by simp)

theorem RoundTrip.mulli (rt : Reg) (ra : Reg) (im : BitVec 16) : RoundTrip.Statement (.mulli rt ra im) := by
  exact (decodeWord_primary _ 7#6 _ (opcd_dForm ..) rfl).trans (by simp)

theorem RoundTrip.mullw (rt : Reg) (ra : Reg) (rb : Reg) (oe : Bool) (rc : Bool) : RoundTrip.Statement (.mullw rt ra rb oe rc) := by
  cases oe <;> exact (decodeWord_group31XO _ _ _ (opcd_xForm ..) (xo10_xForm ..) rfl ((congrArg (findRow ·.toNat group31XO) (xo9_xForm ..)).trans rfl)).trans (by simp)

theorem RoundTrip.neg (rt : Reg) (ra : Reg) (oe : Bool) (rc : Bool) : RoundTrip.Statement (.neg rt ra oe rc) := by
  cases oe <;> exact (decodeWord_group31XO _ _ _ (opcd_xForm ..) (xo10_xForm ..) rfl ((congrArg (findRow ·.toNat group31XO) (xo9_xForm ..)).trans rfl)).trans (by simp)

theorem RoundTrip.subf (rt : Reg) (ra : Reg) (rb : Reg) (oe : Bool) (rc : Bool) : RoundTrip.Statement (.subf rt ra rb oe rc) := by
  cases oe <;> exact (decodeWord_group31XO _ _ _ (opcd_xForm ..) (xo10_xForm ..) rfl ((congrArg (findRow ·.toNat group31XO) (xo9_xForm ..)).trans rfl)).trans (by simp)

theorem RoundTrip.subfc (rt : Reg) (ra : Reg) (rb : Reg) (oe : Bool) (rc : Bool) : RoundTrip.Statement (.subfc rt ra rb oe rc) := by
  cases oe <;> exact (decodeWord_group31XO _ _ _ (opcd_xForm ..) (xo10_xForm ..) rfl ((congrArg (findRow ·.toNat group31XO) (xo9_xForm ..)).trans rfl)).trans (by simp)

theorem RoundTrip.subfe (rt : Reg) (ra : Reg) (rb : Reg) (oe : Bool) (rc : Bool) : RoundTrip.Statement (.subfe rt ra rb oe rc) := by
  cases oe <;> exact (decodeWord_group31XO _ _ _ (opcd_xForm ..) (xo10_xForm ..) rfl ((congrArg (findRow ·.toNat group31XO) (xo9_xForm ..)).trans rfl)).trans (by simp)

theorem RoundTrip.subfic (rt : Reg) (ra : Reg) (im : BitVec 16) : RoundTrip.Statement (.subfic rt ra im) := by
  exact (decodeWord_primary _ 8#6 _ (opcd_dForm ..) rfl).trans (by simp)

theorem RoundTrip.subfme (rt : Reg) (ra : Reg) (oe : Bool) (rc : Bool) : RoundTrip.Statement (.subfme rt ra oe rc) := by
  cases oe <;> exact (decodeWord_group31XO _ _ _ (opcd_xForm ..) (xo10_xForm ..) rfl ((congrArg (findRow ·.toNat group31XO) (xo9_xForm ..)).trans rfl)).trans (by simp)

theorem RoundTrip.subfze (rt : Reg) (ra : Reg) (oe : Bool) (rc : Bool) : RoundTrip.Statement (.subfze rt ra oe rc) := by
  cases oe <;> exact (decodeWord_group31XO _ _ _ (opcd_xForm ..) (xo10_xForm ..) rfl ((congrArg (findRow ·.toNat group31XO) (xo9_xForm ..)).trans rfl)).trans (by simp)

theorem RoundTrip.macchw (rt : Reg) (ra : Reg) (rb : Reg) (oe : Bool) (rc : Bool) : RoundTrip.Statement (.macchw rt ra rb oe rc) := by
  cases oe <;> exact (decodeWord_group4XO _ _ _ (opcd_xForm ..) (xo10_xForm ..) rfl ((congrArg (findRow ·.toNat group4XO) (xo9_xForm ..)).trans rfl)).trans (by simp)

theorem RoundTrip.macchws (rt : Reg) (ra : Reg) (rb : Reg) (oe : Bool) (rc : Bool) : RoundTrip.Statement (.macchws rt ra rb oe rc) := by
  cases oe <;> exact (decodeWord_group4XO _ _ _ (opcd_xForm ..) (xo10_xForm ..) rfl ((congrArg (findRow ·.toNat group4XO) (xo9_xForm ..)).trans rfl)).trans (by simp)

theorem RoundTrip.macchwsu (rt : Reg) (ra : Reg) (rb : Reg) (oe : Bool) (rc : Bool) : RoundTrip.Statement (.macchwsu rt ra rb oe rc) := by
  cases oe <;> exact (decodeWord_group4XO _ _ _ (opcd_xForm ..) (xo10_xForm ..) rfl ((congrArg (findRow ·.toNat group4XO) (xo9_xForm ..)).trans rfl)).trans (by simp)

theorem RoundTrip.macchwu (rt : Reg) (ra : Reg) (rb : Reg) (oe : Bool) (rc : Bool) : RoundTrip.Statement (.macchwu rt ra rb oe rc) := by
  cases oe <;> exact (decodeWord_group4XO _ _ _ (opcd_xForm ..) (xo10_xForm ..) rfl ((congrArg (findRow ·.toNat group4XO) (xo9_xForm ..)).trans rfl)).trans (by simp)

theorem RoundTrip.machhw (rt : Reg) (ra : Reg) (rb : Reg) (oe : Bool) (rc : Bool) : RoundTrip.Statement (.machhw rt ra rb oe rc) := by
  cases oe <;> exact (decodeWord_group4XO _ _ _ (opcd_xForm ..) (xo10_xForm ..) rfl ((congrArg (findRow ·.toNat group4XO) (xo9_xForm ..)).trans rfl)).trans (by simp)

theorem RoundTrip.machhws (rt : Reg) (ra : Reg) (rb : Reg) (oe : Bool) (rc : Bool) : RoundTrip.Statement (.machhws rt ra rb oe rc) := by
  cases oe <;> exact (decodeWord_group4XO _ _ _ (opcd_xForm ..) (xo10_xForm ..) rfl ((congrArg (findRow ·.toNat group4XO) (xo9_xForm ..)).trans rfl)).trans (by simp)

theorem RoundTrip.machhwsu (rt : Reg) (ra : Reg) (rb : Reg) (oe : Bool) (rc : Bool) : RoundTrip.Statement (.machhwsu rt ra rb oe rc) := by
  cases oe <;> exact (decodeWord_group4XO _ _ _ (opcd_xForm ..) (xo10_xForm ..) rfl ((congrArg (findRow ·.toNat group4XO) (xo9_xForm ..)).trans rfl)).trans (by simp)

theorem RoundTrip.machhwu (rt : Reg) (ra : Reg) (rb : Reg) (oe : Bool) (rc : Bool) : RoundTrip.Statement (.machhwu rt ra rb oe rc) := by
  cases oe <;> exact (decodeWord_group4XO _ _ _ (opcd_xForm ..) (xo10_xForm ..) rfl ((congrArg (findRow ·.toNat group4XO) (xo9_xForm ..)).trans rfl)).trans (by simp)

theorem RoundTrip.maclhw (rt : Reg) (ra : Reg) (rb : Reg) (oe : Bool) (rc : Bool) : RoundTrip.Statement (.maclhw rt ra rb oe rc) := by
  cases oe <;> exact (decodeWord_group4XO _ _ _ (opcd_xForm ..) (xo10_xForm ..) rfl ((congrArg (findRow ·.toNat group4XO) (xo9_xForm ..)).trans rfl)).trans (by simp)

theorem RoundTrip.maclhws (rt : Reg) (ra : Reg) (rb : Reg) (oe : Bool) (rc : Bool) : RoundTrip.Statement (.maclhws rt ra rb oe rc) := by
  cases oe <;> exact (decodeWord_group4XO _ _ _ (opcd_xForm ..) (xo10_xForm ..) rfl ((congrArg (findRow ·.toNat group4XO) (xo9_xForm ..)).trans rfl)).trans (by simp)

theorem RoundTrip.maclhwsu (rt : Reg) (ra : Reg) (rb : Reg) (oe : Bool) (rc : Bool) : RoundTrip.Statement (.maclhwsu rt ra rb oe rc) := by
  cases oe <;> exact (decodeWord_group4XO _ _ _ (opcd_xForm ..) (xo10_xForm ..) rfl ((congrArg (findRow ·.toNat group4XO) (xo9_xForm ..)).trans rfl)).trans (by simp)

theorem RoundTrip.maclhwu (rt : Reg) (ra : Reg) (rb : Reg) (oe : Bool) (rc : Bool) : RoundTrip.Statement (.maclhwu rt ra rb oe rc) := by
  cases oe <;> exact (decodeWord_group4XO _ _ _ (opcd_xForm ..) (xo10_xForm ..) rfl ((congrArg (findRow ·.toNat group4XO) (xo9_xForm ..)).trans rfl)).trans (by simp)

theorem RoundTrip.nmacchw (rt : Reg) (ra : Reg) (rb : Reg) (oe : Bool) (rc : Bool) : RoundTrip.Statement (.nmacchw rt ra rb oe rc) := by
  cases oe <;> exact (decodeWord_group4XO _ _ _ (opcd_xForm ..) (xo10_xForm ..) rfl ((congrArg (findRow ·.toNat group4XO) (xo9_xForm ..)).trans rfl)).trans (by simp)

theorem RoundTrip.nmacchws (rt : Reg) (ra : Reg) (rb : Reg) (oe : Bool) (rc : Bool) : RoundTrip.Statement (.nmacchws rt ra rb oe rc) := by
  cases oe <;> exact (decodeWord_group4XO _ _ _ (opcd_xForm ..) (xo10_xForm ..) rfl ((congrArg (findRow ·.toNat group4XO) (xo9_xForm ..)).trans rfl)).trans (by simp)

theorem RoundTrip.nmachhw (rt : Reg) (ra : Reg) (rb : Reg) (oe : Bool) (rc : Bool) : RoundTrip.Statement (.nmachhw rt ra rb oe rc) := by
  cases oe <;> exact (decodeWord_group4XO _ _ _ (opcd_xForm ..) (xo10_xForm ..) rfl ((congrArg (findRow ·.toNat group4XO) (xo9_xForm ..)).trans rfl)).trans (by simp)

theorem RoundTrip.nmachhws (rt : Reg) (ra : Reg) (rb : Reg) (oe : Bool) (rc : Bool) : RoundTrip.Statement (.nmachhws rt ra rb oe rc) := by
  cases oe <;> exact (decodeWord_group4XO _ _ _ (opcd_xForm ..) (xo10_xForm ..) rfl ((congrArg (findRow ·.toNat group4XO) (xo9_xForm ..)).trans rfl)).trans (by simp)

theorem RoundTrip.nmaclhw (rt : Reg) (ra : Reg) (rb : Reg) (oe : Bool) (rc : Bool) : RoundTrip.Statement (.nmaclhw rt ra rb oe rc) := by
  cases oe <;> exact (decodeWord_group4XO _ _ _ (opcd_xForm ..) (xo10_xForm ..) rfl ((congrArg (findRow ·.toNat group4XO) (xo9_xForm ..)).trans rfl)).trans (by simp)

theorem RoundTrip.nmaclhws (rt : Reg) (ra : Reg) (rb : Reg) (oe : Bool) (rc : Bool) : RoundTrip.Statement (.nmaclhws rt ra rb oe rc) := by
  cases oe <;> exact (decodeWord_group4XO _ _ _ (opcd_xForm ..) (xo10_xForm ..) rfl ((congrArg (findRow ·.toNat group4XO) (xo9_xForm ..)).trans rfl)).trans (by simp)

theorem RoundTrip.mulchw (rt : Reg) (ra : Reg) (rb : Reg) (rc : Bool) : RoundTrip.Statement (.mulchw rt ra rb rc) := by
  exact (decodeWord_group4X _ 168#10 _ (opcd_xForm ..) (xo10_xForm ..) rfl).trans (by simp)

theorem RoundTrip.mulchwu (rt : Reg) (ra : Reg) (rb : Reg) (rc : Bool) : RoundTrip.Statement (.mulchwu rt ra rb rc) := by
  exact (decodeWord_group4X _ 136#10 _ (opcd_xForm ..) (xo10_xForm ..) rfl).trans (by simp)

theorem RoundTrip.mulhhw (rt : Reg) (ra : Reg) (rb : Reg) (rc : Bool) : RoundTrip.Statement (.mulhhw rt ra rb rc) := by
  exact (decodeWord_group4X _ 40#10 _ (opcd_xForm ..) (xo10_xForm ..) rfl).trans (by simp)

theorem RoundTrip.mulhhwu (rt : Reg) (ra : Reg) (rb : Reg) (rc : Bool) : RoundTrip.Statement (.mulhhwu rt ra rb rc) := by
  exact (decodeWord_group4X _ 8#10 _ (opcd_xForm ..) (xo10_xForm ..) rfl).trans (by simp)

theorem RoundTrip.mullhw (rt : Reg) (ra : Reg) (rb : Reg) (rc : Bool) : RoundTrip.Statement (.mullhw rt ra rb rc) := by
  exact (decodeWord_group4X _ 424#10 _ (opcd_xForm ..) (xo10_xForm ..) rfl).trans (by simp)

theorem RoundTrip.mullhwu (rt : Reg) (ra : Reg) (rb : Reg) (rc : Bool) : RoundTrip.Statement (.mullhwu rt ra rb rc) := by
  exact (decodeWord_group4X _ 392#10 _ (opcd_xForm ..) (xo10_xForm ..) rfl).trans (by simp)

theorem RoundTrip.and (rs : Reg) (ra : Reg) (rb : Reg) (rc : Bool) : RoundTrip.Statement (.and rs ra rb rc) := by
  exact (decodeWord_group31X _ 28#10 _ (opcd_xForm ..) (xo10_xForm ..) rfl).trans (by simp)

theorem RoundTrip.andc (rs : Reg) (ra : Reg) (rb : Reg) (rc : Bool) : RoundTrip.Statement (.andc rs ra rb rc) := by
  exact (decodeWord_group31X _ 60#10 _ (opcd_xForm ..) (xo10_xForm ..) rfl).trans (by simp)

theorem RoundTrip.andi (rs : Reg) (ra : Reg) (im : BitVec 16) : RoundTrip.Statement (.andi rs ra im) := by
  exact (decodeWord_primary _ 28#6 _ (opcd_dForm ..) rfl).trans (by simp)

theorem RoundTrip.andis (rs : Reg) (ra : Reg) (im : BitVec 16) : RoundTrip.Statement (.andis rs ra im) := by
  exact (decodeWord_primary _ 29#6 _ (opcd_dForm ..) rfl).trans (by simp)

theorem RoundTrip.cntlzw (rs : Reg) (ra : Reg) (rc : Bool) : RoundTrip.Statement (.cntlzw rs ra rc) := by
  exact (decodeWord_group31X _ 26#10 _ (opcd_xForm ..) (xo10_xForm ..) rfl).trans (by simp)

theorem RoundTrip.eqv (rs : Reg) (ra : Reg) (rb : Reg) (rc : Bool) : RoundTrip.Statement (.eqv rs ra rb rc) := by
  exact (decodeWord_group31X _ 284#10 _ (opcd_xForm ..) (xo10_xForm ..) rfl).trans (by simp)

theorem RoundTrip.extsb (rs : Reg) (ra : Reg) (rc : Bool) : RoundTrip.Statement (.extsb rs ra rc) := by
  exact (decodeWord_group31X _ 954#10 _ (opcd_xForm ..) (xo10_xForm ..) rfl).trans (by simp)

theorem RoundTrip.extsh (rs : Reg) (ra : Reg) (rc : Bool) : RoundTrip.Statement (.extsh rs ra rc) := by
  exact (decodeWord_group31X _ 922#10 _ (opcd_xForm ..) (xo10_xForm ..) rfl).trans (by simp)

theorem RoundTrip.nand (rs : Reg) (ra : Reg) (rb : Reg) (rc : Bool) : RoundTrip.Statement (.nand rs ra rb rc) := by
  exact (decodeWord_group31X _ 476#10 _ (opcd_xForm ..) (xo10_xForm ..) rfl).trans (by simp)

theorem RoundTrip.nor (rs : Reg) (ra : Reg) (rb : Reg) (rc : Bool) : RoundTrip.Statement (.nor rs ra rb rc) := by
  exact (decodeWord_group31X _ 124#10 _ (opcd_xForm ..) (xo10_xForm ..) rfl).trans (by simp)

theorem RoundTrip.or (rs : Reg) (ra : Reg) (rb : Reg) (rc : Bool) : RoundTrip.Statement (.or rs ra rb rc) := by
  exact (decodeWord_group31X _ 444#10 _ (opcd_xForm ..) (xo10_xForm ..) rfl).trans (by simp)

theorem RoundTrip.orc (rs : Reg) (ra : Reg) (rb : Reg) (rc : Bool) : RoundTrip.Statement (.orc rs ra rb rc) := by
  exact (decodeWord_group31X _ 412#10 _ (opcd_xForm ..) (xo10_xForm ..) rfl).trans (by simp)

theorem RoundTrip.ori (rs : Reg) (ra : Reg) (im : BitVec 16) : RoundTrip.Statement (.ori rs ra im) := by
  exact (decodeWord_primary _ 24#6 _ (opcd_dForm ..) rfl).trans (by simp)

theorem RoundTrip.oris (rs : Reg) (ra : Reg) (im : BitVec 16) : RoundTrip.Statement (.oris rs ra im) := by
  exact (decodeWord_primary _ 25#6 _ (opcd_dForm ..) rfl).trans (by simp)

theorem RoundTrip.xor (rs : Reg) (ra : Reg) (rb : Reg) (rc : Bool) : RoundTrip.Statement (.xor rs ra rb rc) := by
  exact (decodeWord_group31X _ 316#10 _ (opcd_xForm ..) (xo10_xForm ..) rfl).trans (by simp)

theorem RoundTrip.xori (rs : Reg) (ra : Reg) (im : BitVec 16) : RoundTrip.Statement (.xori rs ra im) := by
  exact (decodeWord_primary _ 26#6 _ (opcd_dForm ..) rfl).trans (by simp)

theorem RoundTrip.xoris (rs : Reg) (ra : Reg) (im : BitVec 16) : RoundTrip.Statement (.xoris rs ra im) := by
  exact (decodeWord_primary _ 27#6 _ (opcd_dForm ..) rfl).trans (by simp)

theorem RoundTrip.cmp (bf : BitVec 3) (ra : Reg) (rb : Reg) (nr : Bool) : RoundTrip.Statement (.cmp bf ra rb nr) := by
  exact (decodeWord_group31X _ 0#10 _ (opcd_xForm ..) (xo10_xForm ..) rfl).trans (by simp)

theorem RoundTrip.cmpi (bf : BitVec 3) (ra : Reg) (im : BitVec 16) : RoundTrip.Statement (.cmpi bf ra im) := by
  exact (decodeWord_primary _ 11#6 _ (opcd_dForm ..) rfl).trans (by simp)

theorem RoundTrip.cmpl (bf : BitVec 3) (ra : Reg) (rb : Reg) (nr : Bool) : RoundTrip.Statement (.cmpl bf ra rb nr) := by
  exact (decodeWord_group31X _ 32#10 _ (opcd_xForm ..) (xo10_xForm ..) rfl).trans (by simp)

theorem RoundTrip.cmpli (bf : BitVec 3) (ra : Reg) (im : BitVec 16) : RoundTrip.Statement (.cmpli bf ra im) := by
  exact (decodeWord_primary _ 10#6 _ (opcd_dForm ..) rfl).trans (by simp)

theorem RoundTrip.b (li : BitVec 24) (aa : Bool) (lk : Bool) : RoundTrip.Statement (.b li aa lk) := by
  exact (decodeWord_primary _ 18#6 _ (opcd_iForm ..) rfl).trans (by simp)

theorem RoundTrip.bc (bo : BitVec 5) (bi : BitVec 5) (bd : BitVec 14) (aa : Bool) (lk : Bool) : RoundTrip.Statement (.bc bo bi bd aa lk) := by
  exact (decodeWord_primary _ 16#6 _ (opcd_bForm ..) rfl).trans (by simp)

theorem RoundTrip.bcctr (bo : BitVec 5) (bi : BitVec 5) (lk : Bool) : RoundTrip.Statement (.bcctr bo bi lk) := by
  exact (decodeWord_group19 _ 528#10 _ (opcd_xForm ..) (xo10_xForm ..) rfl).trans (by simp)

theorem RoundTrip.bclr (bo : BitVec 5) (bi : BitVec 5) (lk : Bool) : RoundTrip.Statement (.bclr bo bi lk) := by
  exact (decodeWord_group19 _ 16#10 _ (opcd_xForm ..) (xo10_xForm ..) rfl).trans (by simp)

theorem RoundTrip.crand (bt : BitVec 5) (ba : BitVec 5) (bb : BitVec 5) (nr : Bool) : RoundTrip.Statement (.crand bt ba bb nr) := by
  exact (decodeWord_group19 _ 257#10 _ (opcd_xForm ..) (xo10_xForm ..) rfl).trans (by simp)

theorem RoundTrip.crandc (bt : BitVec 5) (ba : BitVec 5) (bb : BitVec 5) (nr : Bool) : RoundTrip.Statement (.crandc bt ba bb nr) := by
  exact (decodeWord_group19 _ 129#10 _ (opcd_xForm ..) (xo10_xForm ..) rfl).trans (by simp)

theorem RoundTrip.creqv (bt : BitVec 5) (ba : BitVec 5) (bb : BitVec 5) (nr : Bool) : RoundTrip.Statement (.creqv bt ba bb nr) := by
  exact (decodeWord_group19 _ 289#10 _ (opcd_xForm ..) (xo10_xForm ..) rfl).trans (by simp)

theorem RoundTrip.crnand (bt : BitVec 5) (ba : BitVec 5) (bb : BitVec 5) (nr : Bool) : RoundTrip.Statement (.crnand bt ba bb nr) := by
  exact (decodeWord_group19 _ 225#10 _ (opcd_xForm ..) (xo10_xForm ..) rfl).trans (by simp)

theorem RoundTrip.crnor (bt : BitVec 5) (ba : BitVec 5) (bb : BitVec 5) (nr : Bool) : RoundTrip.Statement (.crnor bt ba bb nr) := by
  exact (decodeWord_group19 _ 33#10 _ (opcd_xForm ..) (xo10_xForm ..) rfl).trans (by simp)

theorem RoundTrip.cror (bt : BitVec 5) (ba : BitVec 5) (bb : BitVec 5) (nr : Bool) : RoundTrip.Statement (.cror bt ba bb nr) := by
  exact (decodeWord_group19 _ 449#10 _ (opcd_xForm ..) (xo10_xForm ..) rfl).trans (by simp)

theorem RoundTrip.crorc (bt : BitVec 5) (ba : BitVec 5) (bb : BitVec 5) (nr : Bool) : RoundTrip.Statement (.crorc bt ba bb nr) := by
  exact (decodeWord_group19 _ 417#10 _ (opcd_xForm ..) (xo10_xForm ..) rfl).trans (by simp)

theorem RoundTrip.crxor (bt : BitVec 5) (ba : BitVec 5) (bb : BitVec 5) (nr : Bool) : RoundTrip.Statement (.crxor bt ba bb nr) := by
  exact (decodeWord_group19 _ 193#10 _ (opcd_xForm ..) (xo10_xForm ..) rfl).trans (by simp)

theorem RoundTrip.mcrf (bf : BitVec 3) (bfa : BitVec 3) (nr : Bool) : RoundTrip.Statement (.mcrf bf bfa nr) := by
  exact (decodeWord_group19 _ 0#10 _ (opcd_xForm ..) (xo10_xForm ..) rfl).trans (by simp)

theorem RoundTrip.rlwimi (rs : Reg) (ra : Reg) (sh : BitVec 5) (mb : BitVec 5) (me : BitVec 5) (rc : Bool) : RoundTrip.Statement (.rlwimi rs ra sh mb me rc) := by
  exact (decodeWord_primary _ 20#6 _ (opcd_xForm ..) rfl).trans (by simp)

theorem RoundTrip.rlwinm (rs : Reg) (ra : Reg) (sh : BitVec 5) (mb : BitVec 5) (me : BitVec 5) (rc : Bool) : RoundTrip.Statement (.rlwinm rs ra sh mb me rc) := by
  exact (decodeWord_primary _ 21#6 _ (opcd_xForm ..) rfl).trans (by simp)

theorem RoundTrip.rlwnm (rs : Reg) (ra : Reg) (rb : Reg) (mb : BitVec 5) (me : BitVec 5) (rc : Bool) : RoundTrip.Statement (.rlwnm rs ra rb mb me rc) := by
  exact (decodeWord_primary _ 23#6 _ (opcd_xForm ..) rfl).trans (by simp)

theorem RoundTrip.slw (rs : Reg) (ra : Reg) (rb : Reg) (rc : Bool) : RoundTrip.Statement (.slw rs ra rb rc) := by
  exact (decodeWord_group31X _ 24#10 _ (opcd_xForm ..) (xo10_xForm ..) rfl).trans (by simp)

theorem RoundTrip.sraw (rs : Reg) (ra : Reg) (rb : Reg) (rc : Bool) : RoundTrip.Statement (.sraw rs ra rb rc) := by
  exact (decodeWord_group31X _ 792#10 _ (opcd_xForm ..) (xo10_xForm ..) rfl).trans (by simp)

theorem RoundTrip.srawi (rs : Reg) (ra : Reg) (sh : BitVec 5) (rc : Bool) : RoundTrip.Statement (.srawi rs ra sh rc) := by
  exact (decodeWord_group31X _ 824#10 _ (opcd_xForm ..) (xo10_xForm ..) rfl).trans (by simp)

theorem RoundTrip.srw (rs : Reg) (ra : Reg) (rb : Reg) (rc : Bool) : RoundTrip.Statement (.srw rs ra rb rc) := by
  exact (decodeWord_group31X _ 536#10 _ (opcd_xForm ..) (xo10_xForm ..) rfl).trans (by simp)

theorem RoundTrip.dcba (ra : Reg) (rb : Reg) (nr : Bool) : RoundTrip.Statement (.dcba ra rb nr) := by
  exact (decodeWord_group31X _ 758#10 _ (opcd_xForm ..) (xo10_xForm ..) rfl).trans (by simp)

theorem RoundTrip.dcbf (ra : Reg) (rb : Reg) (nr : Bool) : RoundTrip.Statement (.dcbf ra rb nr) := by
  exact (decodeWord_group31X _ 86#10 _ (opcd_xForm ..) (xo10_xForm ..) rfl).trans (by simp)

theorem RoundTrip.dcbi (ra : Reg) (rb : Reg) (nr : Bool) : RoundTrip.Statement (.dcbi ra rb nr) := by
  exact (decodeWord_group31X _ 470#10 _ (opcd_xForm ..) (xo10_xForm ..) rfl).trans (by simp)

theorem RoundTrip.dcbst (ra : Reg) (rb : Reg) (nr : Bool) : RoundTrip.Statement (.dcbst ra rb nr) := by
  exact (decodeWord_group31X _ 54#10 _ (opcd_xForm ..) (xo10_xForm ..) rfl).trans (by simp)

theorem RoundTrip.dcbt (ra : Reg) (rb : Reg) (nr : Bool) : RoundTrip.Statement (.dcbt ra rb nr) := by
  exact (decodeWord_group31X _ 278#10 _ (opcd_xForm ..) (xo10_xForm ..) rfl).trans (by simp)

theorem RoundTrip.dcbtst (ra : Reg) (rb : Reg) (nr : Bool) : RoundTrip.Statement (.dcbtst ra rb nr) := by
  exact (decodeWord_group31X _ 246#10 _ (opcd_xForm ..) (xo10_xForm ..) rfl).trans (by simp)

theorem RoundTrip.dcbz (ra : Reg) (rb : Reg) (nr : Bool) : RoundTrip.Statement (.dcbz ra rb nr) := by
  exact (decodeWord_group31X _ 1014#10 _ (opcd_xForm ..) (xo10_xForm ..) rfl).trans (by simp)

theorem RoundTrip.dccci (ra : Reg) (rb : Reg) (nr : Bool) : RoundTrip.Statement (.dccci ra rb nr) := by
  exact (decodeWord_group31X _ 454#10 _ (opcd_xForm ..) (xo10_xForm ..) rfl).trans (by simp)

theorem RoundTrip.dcread (rt : Reg) (ra : Reg) (rb : Reg) (nr : Bool) : RoundTrip.Statement (.dcread rt ra rb nr) := by
  exact (decodeWord_group31X _ 486#10 _ (opcd_xForm ..) (xo10_xForm ..) rfl).trans (by simp)

theorem RoundTrip.icbi (ra : Reg) (rb : Reg) (nr : Bool) : RoundTrip.Statement (.icbi ra rb nr) := by
  exact (decodeWord_group31X _ 982#10 _ (opcd_xForm ..) (xo10_xForm ..) rfl).trans (by simp)

theorem RoundTrip.icbt (ra : Reg) (rb : Reg) (nr : Bool) : RoundTrip.Statement (.icbt ra rb nr) := by
  exact (decodeWord_group31X _ 262#10 _ (opcd_xForm ..) (xo10_xForm ..) rfl).trans (by simp)

theorem RoundTrip.iccci (ra : Reg) (rb : Reg) (nr : Bool) : RoundTrip.Statement (.iccci ra rb nr) := by
  exact (decodeWord_group31X _ 966#10 _ (opcd_xForm ..) (xo10_xForm ..) rfl).trans (by simp)

theorem RoundTrip.icread (ra : Reg) (rb : Reg) (nr : Bool) : RoundTrip.Statement (.icread ra rb nr) := by
  exact (decodeWord_group31X _ 998#10 _ (opcd_xForm ..) (xo10_xForm ..) rfl).trans (by simp)

theorem RoundTrip.mfmsr (rt : Reg) (nr : Bool) : RoundTrip.Statement (.mfmsr rt nr) := by
  exact (decodeWord_group31X _ 83#10 _ (opcd_xForm ..) (xo10_xForm ..) rfl).trans (by simp)

theorem RoundTrip.mtmsr (rs : Reg) (nr : Bool) : RoundTrip.Statement (.mtmsr rs nr) := by
  exact (decodeWord_group31X _ 146#10 _ (opcd_xForm ..) (xo10_xForm ..) rfl).trans (by simp)

theorem RoundTrip.rfci (nr : Bool) : RoundTrip.Statement (.rfci nr) := by
  exact (decodeWord_group19 _ 51#10 _ (opcd_xForm ..) (xo10_xForm ..) rfl).trans (by simp)

theorem RoundTrip.rfi (nr : Bool) : RoundTrip.Statement (.rfi nr) := by
  exact (decodeWord_group19 _ 50#10 _ (opcd_xForm ..) (xo10_xForm ..) rfl).trans (by simp)

theorem RoundTrip.wrtee (rs : Reg) (nr : Bool) : RoundTrip.Statement (.wrtee rs nr) := by
  exact (decodeWord_group31X _ 131#10 _ (opcd_xForm ..) (xo10_xForm ..) rfl).trans (by simp)

theorem RoundTrip.wrteei (e : Bool) (nr : Bool) : RoundTrip.Statement (.wrteei e nr) := by
  exact (decodeWord_group31X _ 163#10 _ (opcd_xForm ..) (xo10_xForm ..) rfl).trans (by simp)

theorem RoundTrip.tlbia (nr : Bool) : RoundTrip.Statement (.tlbia nr) := by
  exact (decodeWord_group31X _ 370#10 _ (opcd_xForm ..) (xo10_xForm ..) rfl).trans (by simp)

theorem RoundTrip.tlbre (rt : Reg) (ra : Reg) (ws : BitVec 5) (nr : Bool) : RoundTrip.Statement (.tlbre rt ra ws nr) := by
  exact (decodeWord_group31X _ 946#10 _ (opcd_xForm ..) (xo10_xForm ..) rfl).trans (by simp)

theorem RoundTrip.tlbsync (nr : Bool) : RoundTrip.Statement (.tlbsync nr) := by
  exact (decodeWord_group31X _ 566#10 _ (opcd_xForm ..) (xo10_xForm ..) rfl).trans (by simp)

theorem RoundTrip.tlbsx (rt : Reg) (ra : Reg) (rb : Reg) (rc : Bool) : RoundTrip.Statement (.tlbsx rt ra rb rc) := by
  exact (decodeWord_group31X _ 914#10 _ (opcd_xForm ..) (xo10_xForm ..) rfl).trans (by simp)

theorem RoundTrip.tlbwe (rs : Reg) (ra : Reg) (ws : BitVec 5) (nr : Bool) : RoundTrip.Statement (.tlbwe rs ra ws nr) := by
  exact (decodeWord_group31X _ 978#10 _ (opcd_xForm ..) (xo10_xForm ..) rfl).trans (by simp)

theorem RoundTrip.eieio (nr : Bool) : RoundTrip.Statement (.eieio nr) := by
  exact (decodeWord_group31X _ 854#10 _ (opcd_xForm ..) (xo10_xForm ..) rfl).trans (by simp)

theorem RoundTrip.isync (nr : Bool) : RoundTrip.Statement (.isync nr) := by
  exact (decodeWord_group19 _ 150#10 _ (opcd_xForm ..) (xo10_xForm ..) rfl).trans (by simp)

theorem RoundTrip.mcrxr (bf : BitVec 3) (nr : Bool) : RoundTrip.Statement (.mcrxr bf nr) := by
  exact (decodeWord_group31X _ 512#10 _ (opcd_xForm ..) (xo10_xForm ..) rfl).trans (by simp)

theorem RoundTrip.mfcr (rt : Reg) (nr : Bool) : RoundTrip.Statement (.mfcr rt nr) := by
  exact (decodeWord_group31X _ 19#10 _ (opcd_xForm ..) (xo10_xForm ..) rfl).trans (by simp)

theorem RoundTrip.mfdcr (rt : Reg) (dcrn : BitVec 10) (nr : Bool) : RoundTrip.Statement (.mfdcr rt dcrn nr) := by
  exact (decodeWord_group31X _ 323#10 _ (opcd_xForm ..) (xo10_xForm ..) rfl).trans (by simp [swapped])

theorem RoundTrip.mtcrf (rs : Reg) (fxm : BitVec 8) (nr : Bool) : RoundTrip.Statement (.mtcrf rs fxm nr) := by
  exact (decodeWord_group31X _ 144#10 _ (opcd_xForm ..) (xo10_xForm ..) rfl).trans (by simp)

theorem RoundTrip.mtdcr (rs : Reg) (dcrn : BitVec 10) (nr : Bool) : RoundTrip.Statement (.mtdcr rs dcrn nr) := by
  exact (decodeWord_group31X _ 451#10 _ (opcd_xForm ..) (xo10_xForm ..) rfl).trans (by simp [swapped])

theorem RoundTrip.sync (nr : Bool) : RoundTrip.Statement (.sync nr) := by
  exact (decodeWord_group31X _ 598#10 _ (opcd_xForm ..) (xo10_xForm ..) rfl).trans (by simp)

theorem RoundTrip.mfspr (rt : Reg) (sprn : BitVec 10) (nr : Bool) : RoundTrip.Statement (.mfspr rt sprn nr) := by
  exact (decodeWord_group31X _ 339#10 _ (opcd_xForm ..) (xo10_xForm ..) rfl).trans (by simp [swapped])

theorem RoundTrip.mftb (rt : Reg) (tbrn : BitVec 10) (nr : Bool) : RoundTrip.Statement (.mftb rt tbrn nr) := by
  exact (decodeWord_group31X _ 371#10 _ (opcd_xForm ..) (xo10_xForm ..) rfl).trans (by simp [swapped])

theorem RoundTrip.mtspr (rs : Reg) (sprn : BitVec 10) (nr : Bool) : RoundTrip.Statement (.mtspr rs sprn nr) := by
  exact (decodeWord_group31X _ 467#10 _ (opcd_xForm ..) (xo10_xForm ..) rfl).trans (by simp [swapped])

theorem RoundTrip.sc : RoundTrip.Statement .sc := by
  rfl

theorem RoundTrip.tw (tcond : BitVec 5) (ra : Reg) (rb : Reg) (nr : Bool) : RoundTrip.Statement (.tw tcond ra rb nr) := by
  exact (decodeWord_group31X _ 4#10 _ (opcd_xForm ..) (xo10_xForm ..) rfl).trans (by simp)

theorem RoundTrip.twi (tcond : BitVec 5) (ra : Reg) (im : BitVec 16) : RoundTrip.Statement (.twi tcond ra im) := by
  exact (decodeWord_primary _ 3#6 _ (opcd_dForm ..) rfl).trans (by simp)

end Sys2Proof.Laws
end

