-- ==== Sys2Proof/Tests/Slice0.lean ====
section
/-! SUPPORT. The model's own tests: the ill-formed terms, the words of spec/'s examples, single steps with the results of
spec/95_test_vectors.md (V numbers) and of the examples in the instruction rules, and for every obligation with hypotheses a
state and operands that meet them. -/
set_option Elab.async false
namespace Sys2Proof.Tests
open Sys2Proof.Machine

/-! ## Ill-formed terms: each check refuses one (30_encoding.md R246) -/

theorem test_wf_bit31 : Instr.formErrors (.sync true) = [.bit31Set] := by decide
theorem test_wf_update_base_zero : Instr.formErrors (.lwzu 3 0 8) = [.updateBaseZero] := by decide
theorem test_wf_update_base_is_target : Instr.formErrors (.lwzu 3 3 8) = [.updateBaseIsTarget] := by decide
theorem test_wf_base_in_loaded_range : Instr.formErrors (.lmw 29 30 0) = [.baseInLoadedRange] := by decide
theorem test_wf_string_base : Instr.formErrors (.lswi 31 0 8 false) = [.baseInLoadedRange] := by decide
theorem test_wf_decrement_counter_target : Instr.formErrors (.bcctr 16 0 false) = [.decrementCounterTarget] := by decide
theorem test_wf_option_bits : Instr.formErrors (.bc 21 0 0 false false) = [.optionBitsNotZero] := by decide
theorem test_wf_word_select : Instr.formErrors (.tlbwe 3 4 2 false) = [.wordSelect] := by decide
theorem test_wf_register_number : Instr.formErrors (.mfspr 3 0x11C false) = [.registerNumber] := by decide
theorem test_wf_well_formed : (Instr.add 3 4 5 true true).wellFormed = true := by decide

/-! ## Words of the examples of each rule, written out by spec/; the instruction is read off the assembler text -/

/-- Each word decodes to its instruction, and the instruction encodes to the word. -/
def decodes (l : List (Nat × Instr)) : Bool :=
  l.all fun p => decodeTableWord 32 p.1 == some p.2 && encode p.2 == bytesOfWord (BitVec.ofNat 32 p.1)

theorem test_decode_storage_reference_1 : decodes [
    (0x88610010, .lbz 3 1 16), (0x8C610010, .lbzu 3 1 16), (0x7C6110EE, .lbzux 3 1 2 false),
    (0x7C6110AE, .lbzx 3 1 2 false), (0xA8610010, .lha 3 1 16), (0xAC610010, .lhau 3 1 16),
    (0x7C6112EE, .lhaux 3 1 2 false), (0x7C6112AE, .lhax 3 1 2 false), (0x7C61162C, .lhbrx 3 1 2 false),
    (0xA0610010, .lhz 3 1 16), (0xA4610010, .lhzu 3 1 16), (0x7C61126E, .lhzux 3 1 2 false)] = true := by decide +kernel
theorem test_decode_storage_reference_2 : decodes [
    (0x7C61122E, .lhzx 3 1 2 false), (0x7C61142C, .lwbrx 3 1 2 false), (0x80610010, .lwz 3 1 16),
    (0x84610010, .lwzu 3 1 16), (0x7C61106E, .lwzux 3 1 2 false), (0x7C61102E, .lwzx 3 1 2 false),
    (0x98A10010, .stb 5 1 16), (0x9CA10010, .stbu 5 1 16), (0x7CA111EE, .stbux 5 1 2 false),
    (0x7CA111AE, .stbx 5 1 2 false), (0xB0A10010, .sth 5 1 16), (0x7CA1172C, .sthbrx 5 1 2 false)] = true := by decide +kernel
theorem test_decode_storage_reference_3 : decodes [
    (0xB4A10010, .sthu 5 1 16), (0x7CA1136E, .sthux 5 1 2 false), (0x7CA1132E, .sthx 5 1 2 false),
    (0x90A10010, .stw 5 1 16), (0x7CA1152C, .stwbrx 5 1 2 false), (0x94A10010, .stwu 5 1 16),
    (0x7CA1116E, .stwux 5 1 2 false), (0x7CA1112E, .stwx 5 1 2 false)] = true := by decide +kernel
theorem test_decode_multiple_string_sync : decodes [
    (0xBBA10010, .lmw 29 1 16), (0x7CA134AA, .lswi 5 1 6 false), (0x7CA1142A, .lswx 5 1 2 false),
    (0x7C602028, .lwarx 3 0 4 false), (0xBFA10010, .stmw 29 1 16), (0x7CA135AA, .stswi 5 1 6 false),
    (0x7CA1152A, .stswx 5 1 2 false), (0x7C60212D, .stwcx 3 0 4)] = true := by decide +kernel
theorem test_decode_arithmetic_1 : decodes [
    (0x7C642E15, .add 3 4 5 true true), (0x7C642C15, .addc 3 4 5 true true), (0x7C642D15, .adde 3 4 5 true true),
    (0x3864FFFF, .addi 3 4 0xFFFF), (0x30640001, .addic 3 4 1), (0x3464FFFF, .addicRc 3 4 0xFFFF),
    (0x3C601234, .addis 3 0 0x1234), (0x7C6405D5, .addme 3 4 true true), (0x7C640595, .addze 3 4 true true),
    (0x7C642FD7, .divw 3 4 5 true true), (0x7C642B96, .divwu 3 4 5 false false), (0x7C642896, .mulhw 3 4 5 false)] = true := by decide +kernel
theorem test_decode_arithmetic_2 : decodes [
    (0x7C642817, .mulhwu 3 4 5 true), (0x1C64FFFD, .mulli 3 4 0xFFFD), (0x7C642DD7, .mullw 3 4 5 true true),
    (0x7C6404D1, .neg 3 4 true true), (0x7C642C51, .subf 3 4 5 true true), (0x7C642C11, .subfc 3 4 5 true true),
    (0x7C642D11, .subfe 3 4 5 true true), (0x2064000A, .subfic 3 4 10), (0x7C6405D1, .subfme 3 4 true true),
    (0x7C640591, .subfze 3 4 true true)] = true := by decide +kernel
theorem test_decode_mac_halfword_1 : decodes [
    (0x10642D59, .macchw 3 4 5 true true), (0x10642DD9, .macchws 3 4 5 true true),
    (0x10642D99, .macchwsu 3 4 5 true true), (0x10642D19, .macchwu 3 4 5 true true),
    (0x10642C59, .machhw 3 4 5 true true), (0x10642CD9, .machhws 3 4 5 true true),
    (0x10642C99, .machhwsu 3 4 5 true true), (0x10642C19, .machhwu 3 4 5 true true),
    (0x10642F59, .maclhw 3 4 5 true true), (0x10642FD9, .maclhws 3 4 5 true true),
    (0x10642F99, .maclhwsu 3 4 5 true true), (0x10642F19, .maclhwu 3 4 5 true true)] = true := by decide +kernel
theorem test_decode_mac_halfword_2 : decodes [
    (0x10642951, .mulchw 3 4 5 true), (0x10642911, .mulchwu 3 4 5 true), (0x10642851, .mulhhw 3 4 5 true),
    (0x10642811, .mulhhwu 3 4 5 true), (0x10642B51, .mullhw 3 4 5 true), (0x10642B11, .mullhwu 3 4 5 true),
    (0x10642D5D, .nmacchw 3 4 5 true true), (0x10642DDD, .nmacchws 3 4 5 true true),
    (0x10642C5D, .nmachhw 3 4 5 true true), (0x10642CDD, .nmachhws 3 4 5 true true),
    (0x10642F5D, .nmaclhw 3 4 5 true true), (0x10642FDD, .nmaclhws 3 4 5 true true)] = true := by decide +kernel
theorem test_decode_logical_compare_1 : decodes [
    (0x7C832839, .and 4 3 5 true), (0x7C832879, .andc 4 3 5 true), (0x7083FF0F, .andi 4 3 0xFF0F),
    (0x7483FF0F, .andis 4 3 0xFF0F), (0x7C842800, .cmp 1 4 5 false), (0x2C840001, .cmpi 1 4 1),
    (0x7C842840, .cmpl 1 4 5 false), (0x28840001, .cmpli 1 4 1), (0x7C830035, .cntlzw 4 3 true),
    (0x7C832A39, .eqv 4 3 5 true), (0x7C830775, .extsb 4 3 true), (0x7C830734, .extsh 4 3 false)] = true := by decide +kernel
theorem test_decode_logical_compare_2 : decodes [
    (0x7C832BB9, .nand 4 3 5 true), (0x7C8328F9, .nor 4 3 5 true), (0x7C832B79, .or 4 3 5 true),
    (0x7C832B39, .orc 4 3 5 true), (0x60000000, .ori 0 0 0), (0x6483FF0F, .oris 4 3 0xFF0F),
    (0x7C832A79, .xor 4 3 5 true), (0x6883FF0F, .xori 4 3 0xFF0F), (0x6C83FF0F, .xoris 4 3 0xFF0F)] = true := by decide +kernel
theorem test_decode_branch_cr_logical_1 : decodes [
    (0x48000040, .b 16 false false), (0x41820020, .bc 12 2 8 false false), (0x4D820420, .bcctr 12 2 false),
    (0x4C820020, .bclr 4 2 false), (0x4C053202, .crand 0 5 6 false), (0x4C053102, .crandc 0 5 6 false),
    (0x4C053242, .creqv 0 5 6 false), (0x4C0531C2, .crnand 0 5 6 false), (0x4C053042, .crnor 0 5 6 false),
    (0x4C053382, .cror 0 5 6 false), (0x4C053342, .crorc 0 5 6 false), (0x4C053182, .crxor 0 5 6 false)] = true := by decide +kernel
theorem test_decode_branch_cr_logical_2 : decodes [
    (0x4C1C0000, .mcrf 0 7 false)] = true := by decide +kernel
theorem test_decode_rotate_shift : decodes [
    (0x5083442E, .rlwimi 4 3 8 16 23 false), (0x5483083F, .rlwinm 4 3 1 0 31 true),
    (0x5C83283E, .rlwnm 4 3 5 0 31 false), (0x7C832831, .slw 4 3 5 true), (0x7C832E31, .sraw 4 3 5 true),
    (0x7C830671, .srawi 4 3 0 true), (0x7C832C30, .srw 4 3 5 false)] = true := by decide +kernel
theorem test_decode_cache_1 : decodes [
    (0x7C0115EC, .dcba 1 2 false), (0x7C0110AC, .dcbf 1 2 false), (0x7C0113AC, .dcbi 1 2 false),
    (0x7C01106C, .dcbst 1 2 false), (0x7C01122C, .dcbt 1 2 false), (0x7C0111EC, .dcbtst 1 2 false),
    (0x7C0117EC, .dcbz 1 2 false), (0x7C01138C, .dccci 1 2 false), (0x7C6113CC, .dcread 3 1 2 false),
    (0x7C0117AC, .icbi 1 2 false), (0x7C01120C, .icbt 1 2 false), (0x7C01178C, .iccci 1 2 false)] = true := by decide +kernel
theorem test_decode_cache_2 : decodes [
    (0x7C0537CC, .icread 5 6 false)] = true := by decide +kernel
theorem test_decode_interrupt_tlb : decodes [
    (0x7C6000A6, .mfmsr 3 false), (0x7C600124, .mtmsr 3 false), (0x4C000066, .rfci false), (0x4C000064, .rfi false),
    (0x7C0002E4, .tlbia false), (0x7C640764, .tlbre 3 4 0 false), (0x7C602F25, .tlbsx 3 0 5 true),
    (0x7C00046C, .tlbsync false), (0x7C640FA4, .tlbwe 3 4 1 false), (0x7C600106, .wrtee 3 false),
    (0x7C008146, .wrteei true false)] = true := by decide +kernel
theorem test_decode_processor_1 : decodes [
    (0x7C0006AC, .eieio false), (0x4C00012C, .isync false), (0x7C000400, .mcrxr 0 false), (0x7C600026, .mfcr 3 false),
    (0x7C634A86, .mfdcr 3 0x123 false), (0x7C6802A6, .mfspr 3 8 false), (0x7C6C42E6, .mftb 3 0x10C false),
    (0x7C6FF120, .mtcrf 3 255 false), (0x7C634B86, .mtdcr 3 0x123 false), (0x7C6903A6, .mtspr 3 9 false),
    (0x44000002, .sc), (0x7C0004AC, .sync false)] = true := by decide +kernel
theorem test_decode_processor_2 : decodes [
    (0x7FE00008, .tw 31 0 0 false), (0x0E03000A, .twi 16 3 10)] = true := by decide +kernel

/-! ## Single steps with the results of spec/95_test_vectors.md -/

/-- The default start state of the vectors: storage and registers 0, pc at 0x10000, with these general registers. -/
def start (gprs : List (Reg × Word)) (mem : List Host.Cell := []) : State :=
  gprs.foldl (fun s p => s.setReg p.1 p.2) { State.reset with pc := 0x10000, dccr := 0, mem := mem }

/-- What a next state shows. -/
def after {α : Type} (r : Result) (f : State → α) : Option α :=
  match r with
  | .next t => some (f t)
  | .fault _ | .refused _ => none

/-- Some bytes of storage. -/
def bytes (s : State) (a n : Nat) : List Byte := (List.range n).map fun k => Memory.read s.mem (a + k)

/-- The start state with region 1 little endian (SLER of the byte order vectors). -/
def littleStart (gprs : List (Reg × Word)) (mem : List Host.Cell := []) : State := { start gprs mem with sler := 0x40000000 }

/-- The storage of vectors V1 to V9. -/
def someBytes : List Host.Cell := [(0x1010, 0x80), (0x1011, 0x91), (0x1012, 0xA2), (0x1013, 0xB3)]

/-- 11 22 33 44 at the start of region 1. -/
def littleBytes : List Host.Cell := [(0x8000000, 0x11), (0x8000001, 0x22), (0x8000002, 0x33), (0x8000003, 0x44)]

-- V1, V2, V5
theorem test_lbz : after (exec (.lbz 3 1 16) (start [(1, 0x1000)] someBytes)) (fun t => (t.reg 3, t.pc)) = some (0x80, 0x10004) := by
  decide +kernel
theorem test_lha : after (exec (.lha 3 1 16) (start [(1, 0x1000)] someBytes)) (·.reg 3) = some 0xFFFF8091 := by decide +kernel
theorem test_lwz_base_zero : after (exec (.lwz 3 0 0x1010) (start [(0, 0xDEAD0000)] someBytes)) (·.reg 3) = some 0x8091A2B3 := by
  decide +kernel
-- V6, V7
theorem test_lwzu : after (exec (.lwzu 3 1 16) (start [(1, 0x1000)] someBytes)) (fun t => (t.reg 1, t.reg 3))
    = some (0x1010, 0x8091A2B3) := by decide +kernel
theorem test_lwzux_wraps : after (exec (.lwzux 3 1 2 false) (start [(1, 0x1020), (2, 0xFFFFFFF0)] someBytes)) (fun t => (t.reg 1, t.reg 3))
    = some (0x1010, 0x8091A2B3) := by decide +kernel
-- V9: an operand across the top of the address space
theorem test_lwz_top : after (exec (.lwz 3 1 0) (start [(1, 0xFFFFFFFE)]
    [(0, 0x33), (1, 0x44), (0xFFFFFFFE, 0x11), (0xFFFFFFFF, 0x22)])) (·.reg 3) = some 0x11223344 := by decide +kernel
-- V11, V13, V18, V19
theorem test_sth : after (exec (.sth 5 1 16) (start [(1, 0x1000), (5, 0x11223344)])) (bytes · 0x100F 4) = some [0, 0x33, 0x44, 0] := by
  decide +kernel
theorem test_stwu_stores_old_base : after (exec (.stwu 1 1 0xFFF0) (start [(1, 0x2000)])) (fun t => (t.reg 1, bytes t 0x1FF0 4))
    = some (0x1FF0, [0, 0, 0x20, 0]) := by decide +kernel
theorem test_sthbrx : after (exec (.sthbrx 5 1 2 false) (start [(1, 0x1000), (2, 16), (5, 0x11223344)])) (bytes · 0x1010 2)
    = some [0x44, 0x33] := by decide +kernel
theorem test_stwbrx : after (exec (.stwbrx 5 1 2 false) (start [(1, 0x1000), (2, 16), (5, 0x11223344)])) (bytes · 0x1010 4)
    = some [0x44, 0x33, 0x22, 0x11] := by decide +kernel
-- V21, V23, V24, V26: a little-endian region
theorem test_lwbrx_little : after (exec (.lwbrx 3 0 1 false) (littleStart [(1, 0x8000000)] littleBytes)) (·.reg 3) = some 0x11223344 := by
  decide +kernel
theorem test_lwz_little : after (exec (.lwz 3 1 0) (littleStart [(1, 0x8000000)] littleBytes)) (·.reg 3) = some 0x44332211 := by
  decide +kernel
theorem test_lhz_little : after (exec (.lhz 3 1 0) (littleStart [(1, 0x8000000)] littleBytes)) (·.reg 3) = some 0x2211 := by decide +kernel
theorem test_stw_little : after (exec (.stw 5 1 0) (littleStart [(1, 0x8000000), (5, 0x11223344)])) (bytes · 0x8000000 4)
    = some [0x44, 0x33, 0x22, 0x11] := by decide +kernel
-- V30, V31, V33, V35
theorem test_lmw : after (exec (.lmw 29 1 16) (start [(1, 0x1000)] [(0x1013, 1), (0x1017, 2), (0x101B, 3)]))
    (fun t => (t.reg 29, t.reg 30, t.reg 31)) = some (1, 2, 3) := by decide +kernel
theorem test_stmw : after (exec (.stmw 29 1 0xFFF4) (start [(1, 0x2000), (29, 0xAAAA0001), (30, 0xBBBB0002), (31, 0xCCCC0003)]))
    (bytes · 0x1FF4 12) = some [0xAA, 0xAA, 0, 1, 0xBB, 0xBB, 0, 2, 0xCC, 0xCC, 0, 3] := by decide +kernel
theorem test_lswi : after (exec (.lswi 5 1 6 false) (start [(1, 0x1000), (6, 0xFFFFFFFF)]
    [(0x1000, 1), (0x1001, 2), (0x1002, 3), (0x1003, 4), (0x1004, 5), (0x1005, 6)])) (fun t => (t.reg 5, t.reg 6))
    = some (0x01020304, 0x05060000) := by decide +kernel
theorem test_stswi : after (exec (.stswi 5 1 6 false) (start [(1, 0x1000), (5, 0x01020304), (6, 0x05060708)])) (bytes · 0x1000 7)
    = some [1, 2, 3, 4, 5, 6, 0] := by decide +kernel
-- V41, V42, V43
theorem test_stwcx_no_reservation : after (exec (.stwcx 3 0 4) { start [(3, 9), (4, 0x2000)] with xer := 0x80000000 })
    (fun t => (t.cr, bytes t 0x2000 4)) = some (0x10000000, [0, 0, 0, 0]) := by decide +kernel
theorem test_stwcx_reserved : after (exec (.stwcx 3 0 4) { start [(3, 9), (4, 0x2400)] with reserve := true })
    (fun t => (t.cr, t.reserve, bytes t 0x2400 4)) = some (0x20000000, false, [0, 0, 0, 9]) := by decide +kernel
theorem test_lwarx_misaligned : after (exec (.lwarx 3 0 4 false) { start [(4, 0x2002)] with msr := 0x8000, evpr := 0xFFF00000 })
    (fun t => (t.pc, t.srr0, t.srr1, t.dear, t.msr, t.reserve)) = some (0xFFF00600, 0x10000, 0x8000, 0x2002, 0, false) := by
  decide +kernel
-- V50 to V53
theorem test_addo_record : after (exec (.add 3 4 5 true true) (start [(4, 0x7FFFFFFF), (5, 1)])) (fun t => (t.reg 3, t.cr, t.xer))
    = some (0x80000000, 0x90000000, 0xC0000000) := by decide +kernel
theorem test_add_keeps_carry : after (exec (.add 3 4 5 false false) { start [(4, 0xFFFFFFFF), (5, 1)] with xer := 0x20000000 })
    (fun t => (t.reg 3, t.xer)) = some (0, 0x20000000) := by decide +kernel
theorem test_addc : after (exec (.addc 3 4 5 false false) (start [(4, 0xFFFFFFFF), (5, 1)])) (fun t => (t.reg 3, t.xer))
    = some (0, 0x20000000) := by decide +kernel
theorem test_adde : after (exec (.adde 3 4 5 false false) { start [(4, 0xFFFFFFFF)] with xer := 0x20000000 })
    (fun t => (t.reg 3, t.xer)) = some (0, 0x20000000) := by decide +kernel
-- 30_encoding.md R246 (c), U2: the other registers of an invalid form are as its pseudocode says
theorem test_lmw_base_in_range : after (exec (.lmw 29 30 0) (start [(30, 0x1000)] [(0x1003, 1), (0x1007, 2), (0x100B, 3)]))
    (fun t => (t.reg 29, t.reg 31, t.freeCount)) = some (1, 3, 1) := by decide +kernel
theorem test_bcctr_decrement : after (exec (.bcctr 16 0 true) { start [] with ctr := 0x2001 })
    (fun t => (t.pc, t.lr, t.freeCount)) = some (0x2000, 0x10004, 1) := by decide +kernel
theorem test_mtspr_srr0 : after (exec (.mtspr 3 0x01A false) (start [(3, 0xFFFFFFFF)])) (·.srr0) = some 0xFFFFFFFC := by decide +kernel
-- the examples of R342, R343, R344, R350
theorem test_mulhwu : after (exec (.mulhwu 3 4 5 true) (start [(4, 0xFFFFFFFF), (5, 2)])) (fun t => (t.reg 3, t.cr))
    = some (1, 0x40000000) := by decide +kernel
theorem test_mulli : after (exec (.mulli 3 4 0xFFFD) (start [(4, 7)])) (·.reg 3) = some 0xFFFFFFEB := by decide +kernel
theorem test_subfic_borrow : after (exec (.subfic 3 4 10) { start [(4, 11)] with xer := 0x20000000 }) (fun t => (t.reg 3, t.xer))
    = some (0xFFFFFFFF, 0) := by decide +kernel
-- the examples of R466, R458, R459
theorem test_mcrf : after (exec (.mcrf 0 7 false) { start [] with cr := 0xA }) (·.cr) = some 0xA000000A := by decide +kernel
theorem test_crand : after (exec (.crand 0 5 6 false) { start [] with cr := 0x06000000 }) (·.cr) = some 0x86000000 := by decide +kernel
theorem test_crandc : after (exec (.crandc 0 5 6 false) { start [] with cr := 0x06000000 }) (·.cr) = some 0x06000000 := by decide +kernel
-- the example of R454: b +0x40 at 0x1000
theorem test_b : after (exec (.b 16 false true) { start [] with pc := 0x1000 }) (fun t => (t.pc, t.lr)) = some (0x1040, 0x1004) := by
  decide +kernel
-- R643: the next address is saved
theorem test_sc : after (exec .sc { start [] with msr := 0xC000, evpr := 0xFFF00000 })
    (fun t => (t.pc, t.srr0, t.srr1, t.msr)) = some (0xFFF00C00, 0x10004, 0xC000, 0) := by decide +kernel
-- R640: a privileged instruction in problem state
theorem test_mfmsr_problem : after (exec (.mfmsr 3 false) { start [] with msr := 0x4000 }) (fun t => (t.pc, t.srr0, t.esr, t.msr))
    = some (0x700, 0x10000, 0x04000000, 0) := by decide +kernel
-- the whole step: `addi r3,r4,1` fetched from a little-endian region (V29)
theorem test_step_little : after (step { littleStart [(4, 7)] [(0x8001000, 1), (0x8001002, 0x64), (0x8001003, 0x38)] with pc := 0x8001000 })
    (fun t => (t.reg 3, t.pc)) = some (8, 0x8001004) := by decide +kernel
-- R603, R640: the word 0 is no instruction
theorem test_step_illegal : after (step (start [])) (fun t => (t.pc, t.srr0, t.esr)) = some (0x700, 0x10000, 0x08000000) := by
  decide +kernel
-- what the host asks: the first instruction after reset
theorem test_step_after_reset : after (step (State.reset.withFetchWord 32 0x38600001)) (fun t => (t.reg 3, t.pc)) = some (1, 0) := by
  decide +kernel

/-! ## Witnesses: for each obligation with hypotheses, a state and operands that meet them, clause by clause -/

/-- A 4 KB page at 0x10000, for every PID, in zone 0. -/
def page : TlbEntry := { TlbEntry.zero with epn := 0x40, size := 1, v := true, rpn := 0x80, ex := true, wr := true }

/-- Data and instructions translated through one entry; zone 0 is 01 (EX and WR decide). -/
def translated (e : TlbEntry) (msr : Word := 0x30) (gprs : List (Reg × Word) := []) : State :=
  { start gprs with msr := msr, zpr := 0x40000000, tlb := State.reset.tlb.set 0 e }

/-- Storage holds this word, big endian, at 0x10000. -/
def code (w : Word) : List Host.Cell := storeInstruction [] 0x10000 false w

/-- The state in which `step s` fetches. -/
def reached (s : State) : State :=
  recordUnconditional (s.inputs.headD HostInput.idle).unconditionalDebug
    (ticks (s.inputs.headD HostInput.idle).ticks { s with inputs := s.inputs.tail, entry := none })

/-- The decidable part of `ReachesFetch`. -/
def fetches (s : State) : Bool :=
  (s.inputs.headD HostInput.idle).reset == none && (reached s).debugRefusal == none &&
    pendingInterrupts (s.inputs.headD HostInput.idle) (reached s) == [] && !(reached s).weBit && !(reached s).idmBit

theorem reachesFetch_reached {s : State} (h : fetches s = true) : ReachesFetch s (reached s) := by
  simp only [fetches, Bool.and_eq_true, beq_iff_eq, Bool.not_eq_true'] at h
  exact ⟨h.1.1.1.1, rfl, h.1.1.1.2, h.1.1.2, h.1.2, h.2⟩

/-- A program counter at which a floating-point word stands, with an FPU attached and MSR[FP] = 0. -/
def floatingWord : State := { start [] (code 0xC0000000) with fpuPresent := true }

/-- The same with an unused word of OPCD 4 and an APU. -/
def auxiliaryWord : State := { start [] (code 0x10000000) with apuPresent := true }

-- EncodingsOutsideTheCoreTrap
theorem witness_illegal_primary_least : (opcd 0x00000000).toNat ∈ [0, 1, 2, 5, 6, 9, 22, 30, 56, 57, 58, 60, 61, 62] := by decide
theorem witness_illegal_primary_greatest : (opcd 0xFBFFFFFF).toNat ∈ [0, 1, 2, 5, 6, 9, 22, 30, 56, 57, 58, 60, 61, 62] := by decide
theorem witness_floating_primary_least : (opcd 0xC0000000).toNat ∈ [48, 49, 50, 51, 52, 53, 54, 55, 59, 63] := by decide
theorem witness_floating_primary_greatest : (opcd 0xFFFFFFFF).toNat ∈ [48, 49, 50, 51, 52, 53, 54, 55, 59, 63] := by decide
theorem witness_illegal_word : ReachesFetch (start []) (reached (start [])) ∧ (reached (start [])).fetch = .ok [0, 0, 0, 0] ∧
    decode [0, 0, 0, 0] = .error (.illegalPrimary 0) ∧ (reached (start [])).fpuPresent = false ∧
    (reached (start [])).apuPresent = false :=
  ⟨reachesFetch_reached (by decide +kernel), by rfl, by rfl, rfl, rfl⟩
theorem witness_illegal_word_units : let s : State := { start [] (code 0xC0000000) with apuPresent := true }
    ReachesFetch s (reached s) ∧ (reached s).fetch = .ok [0xC0, 0, 0, 0] ∧ decode [0xC0, 0, 0, 0] = .error (.floatingPoint 48 0) ∧
      (reached s).fpuPresent = false ∧ (reached s).apuPresent = true :=
  ⟨reachesFetch_reached (by decide +kernel), by rfl, by rfl, rfl, rfl⟩
theorem witness_floating_word : ReachesFetch floatingWord (reached floatingWord) ∧
    (reached floatingWord).fetch = .ok [0xC0, 0, 0, 0] ∧ decode [0xC0, 0, 0, 0] = .error (.floatingPoint 48 0) ∧
    (reached floatingWord).fpuPresent = true ∧ (reached floatingWord).fpBit = false :=
  ⟨reachesFetch_reached (by decide +kernel), by rfl, by rfl, rfl, rfl⟩
theorem witness_auxiliary_word : ReachesFetch auxiliaryWord (reached auxiliaryWord) ∧
    (reached auxiliaryWord).fetch = .ok [0x10, 0, 0, 0] ∧ decode [0x10, 0, 0, 0] = .error (.auxiliary 0) ∧
    (reached auxiliaryWord).apuPresent = true ∧ (reached auxiliaryWord).apBit = false :=
  ⟨reachesFetch_reached (by decide +kernel), by rfl, by rfl, rfl, rfl⟩

-- StepKeepsTheInvariant
theorem witness_step_keeps : State.reset.Inv ∧ ∃ t, step State.reset = .next t := ⟨by constructor <;> rfl, _, rfl⟩

-- StepRunsTheDecodedInstruction: a next state, and a refusal (a duplicate TLB entry met by lwz); no instruction faults
theorem witness_step_runs : let s := start [] (code 0x38600001)
    ReachesFetch s (reached s) ∧ (reached s).fetch = .ok [0x38, 0x60, 0, 1] ∧
      decode [0x38, 0x60, 0, 1] = .ok (.addi 3 0 1, []) ∧ ∃ t, exec (.addi 3 0 1) (reached s).afterFetch = .next t ∧ t.idmBit = false :=
  ⟨reachesFetch_reached (by decide +kernel), by rfl, by rfl, _, rfl, by rfl⟩
theorem witness_step_refuses : let s : State := { translated page 0x10 [(1, 0x10000)] with
      tlb := (State.reset.tlb.set 0 page).set 1 page, mem := code 0x80610000 }
    ReachesFetch s (reached s) ∧ (reached s).fetch = .ok [0x80, 0x61, 0, 0] ∧
      decode [0x80, 0x61, 0, 0] = .ok (.lwz 3 1 0, []) ∧
      exec (.lwz 3 1 0) (reached s).afterFetch = .refused .duplicateTlbEntries :=
  ⟨reachesFetch_reached (by decide +kernel), by rfl, by rfl, by rfl⟩

-- FetchReadsTheWordAtPc: untranslated, both orders; translated
theorem witness_fetch_big : (start []).fetchPlace = .real 0x10000 false ∧ (start []).irBit = false ∧
    ∀ k, k < 4 → (start []).isHole (0x10000 + BitVec.ofNat 32 k) = false ∧ (start []).isDevice (0x10000 + BitVec.ofNat 32 k) = false := by
  refine ⟨rfl, rfl, by decide⟩
theorem witness_fetch_little : let s := littleStart []
    { s with pc := 0x8000000 }.fetchPlace = .real 0x8000000 true ∧
      ∀ k, k < 4 → s.isHole (0x8000000 + BitVec.ofNat 32 k) = false ∧ s.isDevice (0x8000000 + BitVec.ofNat 32 k) = false := by
  refine ⟨rfl, by decide⟩
theorem witness_fetch_translated : (translated page).fetchPlace = .real 0x20000 false ∧
    ∀ k, k < 4 → (translated page).isHole (0x20000 + BitVec.ofNat 32 k) = false ∧
      (translated page).isDevice (0x20000 + BitVec.ofNat 32 k) = false := by
  refine ⟨by rfl, by decide⟩
theorem witness_fetch_device : let s : State := { start [] with memoryMap := [⟨0x10000, 0x1FFFF, .device [4] []⟩] }
    s.fetchPlace = .real 0x10000 false ∧ (∃ loads stores, s.regionKind 0x10000 = some (.device loads stores) ∧ 4 ∈ loads) ∧
      ∀ k, k < 4 → s.isHole (0x10000 + BitVec.ofNat 32 k) = false := by
  refine ⟨rfl, ⟨[4], [], rfl, by decide⟩, by decide⟩
theorem witness_fetch_over_kinds : let s : State := { start [] with memoryMap := [⟨0x10003, 0x10003, .device [4] []⟩] }
    s.fetchPlace = .real 0x10000 false ∧ s.isDevice 0x10000 = false ∧ s.isDevice 0x10003 = true ∧
      ∀ k, k < 4 → s.isHole (0x10000 + BitVec.ofNat 32 k) = false := by
  refine ⟨rfl, rfl, rfl, by decide⟩

-- FailingFetchesTrap, clause by clause
theorem witness_fetch_miss : let s := translated TlbEntry.zero
    ReachesFetch s (reached s) ∧ (reached s).irBit = true ∧ (reached s).lookup (reached s).pc = .miss :=
  ⟨reachesFetch_reached (by decide +kernel), rfl, by rfl⟩
theorem witness_fetch_duplicate : let s : State := { translated page with tlb := (State.reset.tlb.set 0 page).set 63 page }
    ReachesFetch s (reached s) ∧ (reached s).irBit = true ∧ (reached s).lookup (reached s).pc = .duplicate :=
  ⟨reachesFetch_reached (by decide +kernel), rfl, by rfl⟩
theorem witness_fetch_zone : let s : State := { translated page 0x4030 with zpr := 0 }
    ReachesFetch s (reached s) ∧ (reached s).irBit = true ∧ (reached s).lookup (reached s).pc = .hit 0 page ∧
      (reached s).zoneDenies page = true :=
  ⟨reachesFetch_reached (by decide +kernel), rfl, by rfl, rfl⟩
theorem witness_fetch_not_executable : let e := { page with ex := false }
    let s := translated e
    ReachesFetch s (reached s) ∧ (reached s).irBit = true ∧ (reached s).lookup (reached s).pc = .hit 0 e ∧
      (reached s).zoneDenies e = false ∧ e.ex = false ∧ (reached s).zoneOverrides e = false :=
  ⟨reachesFetch_reached (by decide +kernel), rfl, by rfl, rfl, rfl, rfl⟩
theorem witness_fetch_guarded : let e := { page with g := true }
    let s := translated e
    ReachesFetch s (reached s) ∧ (reached s).irBit = true ∧ (reached s).lookup (reached s).pc = .hit 0 e ∧
      (reached s).zoneDenies e = false ∧ e.g = true :=
  ⟨reachesFetch_reached (by decide +kernel), rfl, by rfl, rfl, rfl⟩
theorem witness_fetch_bus_error : let s : State := { start [] with msr := 0x1000, memoryMap := [⟨0x10003, 0x10003, .hole⟩] }
    ReachesFetch s (reached s) ∧ (reached s).fetchPlace = .real 0x10000 false ∧
      (reached s).isHole (0x10000 + BitVec.ofNat 32 3) = true ∧ (reached s).meBit = true :=
  ⟨reachesFetch_reached (by decide +kernel), rfl, rfl, rfl⟩
theorem witness_fetch_bus_error_unmasked : let s : State := { start [] with memoryMap := [⟨0x10000, 0x10000, .hole⟩] }
    ReachesFetch s (reached s) ∧ (reached s).fetchPlace = .real 0x10000 false ∧
      (reached s).isHole (0x10000 + BitVec.ofNat 32 0) = true ∧ (reached s).meBit = false :=
  ⟨reachesFetch_reached (by decide +kernel), rfl, rfl, rfl⟩
theorem witness_fetch_width : let s : State := { start [] with msr := 0x1000, memoryMap := [⟨0x10000, 0x1FFFF, .device [1, 2] [1, 2, 4]⟩] }
    ReachesFetch s (reached s) ∧ (reached s).fetchPlace = .real 0x10000 false ∧ (reached s).meBit = true ∧
      ∃ loads stores, (reached s).regionKind 0x10000 = some (.device loads stores) ∧ 4 ∉ loads :=
  ⟨reachesFetch_reached (by decide +kernel), rfl, rfl, _, _, rfl, by decide⟩

-- AsynchronousInterruptsInOrder and WaitStateWaits: the states, one per interrupt; the hypotheses on them
def pendingStates : List (State × Interrupt) :=
  [({ start [] with msr := 0x00028000, tsr := 0x4C000000, tcr := 0x0D800000, inputs := [⟨0, true, true, none, false⟩] }, .criticalInput),
   ({ start [] with msr := 0x00028000, tsr := 0x4C000000, tcr := 0x0D800000, inputs := [⟨0, true, false, none, false⟩] }, .watchdog),
   ({ start [] with msr := 0x00008000, tsr := 0x4C000000, tcr := 0x0D800000, inputs := [⟨0, true, true, none, false⟩] }, .external),
   ({ start [] with msr := 0x00008000, tsr := 0x0C000000, tcr := 0x04000000, inputs := [] }, .intervalTimer),
   ({ start [] with msr := 0x00008000, tsr := 0x0C000000, tcr := 0x04800000, inputs := [] }, .fixedTimer)]

/-- The interrupt that the if-chain of `AsynchronousInterruptsInOrder` chooses. -/
def chosen (s u : State) : Option Interrupt :=
  if u.ceBit = true ∧ (s.inputs.headD HostInput.idle).critical = true then some .criticalInput
  else if u.ceBit = true ∧ bitOf u.tsr 1 = true ∧ bitOf u.tcr 4 = true then some .watchdog
  else if u.eeBit = true ∧ (s.inputs.headD HostInput.idle).external = true then some .external
  else if u.eeBit = true ∧ bitOf u.tsr 5 = true ∧ bitOf u.tcr 8 = true then some .fixedTimer
  else if u.eeBit = true ∧ bitOf u.tsr 4 = true ∧ bitOf u.tcr 5 = true then some .intervalTimer
  else none

theorem witness_asynchronous : pendingStates.all (fun p => (p.1.inputs.headD HostInput.idle).reset == none &&
    (reached p.1).debugRefusal == none && !(reached p.1).idmBit && chosen p.1 (reached p.1) == some p.2) = true := by decide +kernel
theorem witness_wait_for_ever : let s : State := { start [] with msr := 0x00040000 }
    (reached s).weBit = true ∧ (reached s).eeBit = false ∧ (reached s).ceBit = false ∧ (reached s).idmBit = false ∧
      (reached s).debugRefusal = none ∧ pendingInterrupts HostInput.idle (reached s) = [] := ⟨rfl, rfl, rfl, rfl, rfl, rfl⟩
theorem witness_wait : let s : State := { start [] with msr := 0x00048000 }
    (reached s).weBit = true ∧ (reached s).eeBit = true ∧ (reached s).idmBit = false ∧
      (reached s).debugRefusal = none ∧ pendingInterrupts HostInput.idle (reached s) = [] := ⟨rfl, rfl, rfl, rfl, rfl⟩

-- The loads and stores: accessible operands at the top of the address space, in a translated page, in a little-endian region
theorem witness_accessible_top : (start [(1, 0xFFFFFFFE)]).allAccessible false (byteAddresses ((start [(1, 0xFFFFFFFE)]).eaD 1 0) 4) = true ∧
    (start [(1, 0xFFFFFFFE)]).allAccessible true (byteAddresses ((start [(1, 0xFFFFFFFE)]).eaX 1 2) 4) = true ∧
    Memory.wf (start [(1, 0xFFFFFFFE)]).mem = true := by decide +kernel
theorem witness_accessible_page_end : (translated page 0x10).allAccessible false (byteAddresses 0x10FFC 4) = true ∧
    (translated page 0x10).allAccessible true (byteAddresses 0x10FFE 2) = true ∧
    (translated page 0x10).allAccessible true (byteAddresses 0x10FFF 1) = true ∧
    (littleStart []).littleData false 0x8000000 = true := by decide +kernel

-- MultiplesMoveConsecutiveWords: RA outside, inside and last; StringLoadsFillRegisters: counts 0, 1, 32 and 127
theorem witness_multiples : ∀ q : Reg, (start []).allAccessible false (byteAddresses ((start []).eaD 30 0 +
    BitVec.ofNat 32 (4 * (q.toNat - (0 : Reg).toNat))) 4) = true ∧ (start []).allAccessible true (byteAddresses ((start []).eaD 30 0 +
    BitVec.ofNat 32 (4 * (q.toNat - (0 : Reg).toNat))) 4) = true := by decide +kernel
theorem witness_strings : ∀ k, k < 127 → (start []).accessible false ((start []).eaX 1 2 + BitVec.ofNat 32 k) = true := by decide +kernel
theorem witness_string_store : (start []).allAccessible true (byteAddresses ((start []).ra0 1) 32) = true ∧
    { start [] with xer := 127 }.allAccessible true (byteAddresses ((start []).eaX 1 2) (127 % 128)) = true := by decide +kernel

-- ReservationPair
theorem witness_reservation : Memory.wf (start [(4, 0x2000)]).mem = true ∧ misaligned ((start [(4, 0x2000)]).eaX 0 4) = false ∧
    (start [(4, 0x2000)]).allAccessible false (byteAddresses ((start [(4, 0x2000)]).eaX 0 4) 4) = true ∧
    (start [(4, 0x2000)]).allAccessible true (byteAddresses ((start [(4, 0x2000)]).eaX 0 4) 4) = true := by decide +kernel

-- DataTlbMissAtTheFirstByte, DataStorageAtTheFirstByte: the first byte, the last byte, a privileged instruction
theorem reachesByte_of {i : Instr} {s : State} {store : Bool} {ea : Word} {n k : Nat} (hk : k < n)
    (hi : (∀ rt ra d, i ≠ .lmw rt ra d) ∧ (∀ rt ra nb nr, i ≠ .lswi rt ra nb nr) ∧ ∀ rt ra rb nr, i ≠ .lswx rt ra rb nr)
    (h : (List.range k).all (fun j => s.permitted store (ea + BitVec.ofNat 32 j)) = true) : ReachesByte i s store ea n k := by
  refine ⟨hk, ?_, fun j hj _ => List.all_eq_true.1 h j (List.mem_range.2 hj)⟩
  rintro (⟨_, _, _, e, -⟩ | ⟨_, _, _, _, e, -⟩ | ⟨_, _, _, _, e, -⟩)
  · exact hi.1 _ _ _ e
  · exact hi.2.1 _ _ _ _ e
  · exact hi.2.2 _ _ _ _ e

theorem witness_data_miss_last_byte : let s := translated page 0x10 [(1, 0x10FFD)]
    Instr.lwz 3 1 0 ∈ scalarReferences 3 1 2 0 false ∧ dataReference (.lwz 3 1 0) s = some (false, 0x10FFD, 4) ∧
      ReachesByte (.lwz 3 1 0) s false 0x10FFD 4 3 ∧ s.translateData false (0x10FFD + BitVec.ofNat 32 3) = .miss :=
  ⟨by decide, by rfl, reachesByte_of (by decide) (by simp) (by decide +kernel), by rfl⟩
theorem witness_data_miss_privileged : let s := translated TlbEntry.zero 0x10
    Instr.dcbi 1 2 false ∈ privilegedReferences 3 1 2 false ∧ s.prBit = false ∧
      dataReference (.dcbi 1 2 false) s = some (true, 0, 1) ∧ ReachesByte (.dcbi 1 2 false) s true 0 1 0 ∧
      s.translateData true (0 + BitVec.ofNat 32 0) = .miss :=
  ⟨by decide, rfl, by rfl, reachesByte_of (by decide) (by simp) (by decide +kernel), by rfl⟩
theorem witness_data_duplicate : let s : State := { translated page 0x10 [(1, 0x0FFFD)] with
      tlb := ((State.reset.tlb.set 0 page).set 63 page).set 1 { page with epn := 0x3C } }
    dataReference (.stw 3 1 0) s = some (true, 0x0FFFD, 4) ∧ ReachesByte (.stw 3 1 0) s true 0x0FFFD 4 3 ∧
      s.translateData true (0x0FFFD + BitVec.ofNat 32 3) = .duplicate :=
  ⟨by rfl, reachesByte_of (by decide) (by simp) (by decide +kernel), by rfl⟩
theorem witness_data_storage_read_only : let s := translated { page with wr := false } 0x10 [(1, 0x10000)]
    Instr.stw 3 1 0 ∈ scalarReferences 3 1 2 0 false ∧ dataReference (.stw 3 1 0) s = some (true, 0x10000, 4) ∧
      ReachesByte (.stw 3 1 0) s true 0x10000 4 0 ∧ s.translateData true (0x10000 + BitVec.ofNat 32 0) = .denied false false :=
  ⟨by decide, by rfl, reachesByte_of (by decide) (by simp) (by decide +kernel), by rfl⟩
theorem witness_data_storage_zone : let s : State := { translated page 0x4010 [(1, 0x10000)] with zpr := 0 }
    dataReference (.lwz 3 1 0) s = some (false, 0x10000, 4) ∧ ReachesByte (.lwz 3 1 0) s false 0x10000 4 0 ∧
      s.translateData false (0x10000 + BitVec.ofNat 32 0) = .denied true false :=
  ⟨by rfl, reachesByte_of (by decide) (by simp) (by decide +kernel), by rfl⟩
theorem witness_data_storage_u0 : let s : State := { start [] with su0r := 0x80000000, ccr0 := 0x00020000 }
    dataReference (.stb 3 1 0) s = some (true, 0, 1) ∧ ReachesByte (.stb 3 1 0) s true 0 1 0 ∧
      s.translateData true (0 + BitVec.ofNat 32 0) = .denied false true :=
  ⟨by rfl, reachesByte_of (by decide) (by simp) (by decide +kernel), by rfl⟩

-- AlignmentInterrupts: each low address; dcbz on caching-inhibited and on write-through storage
theorem witness_misaligned : [1, 2, 3].all (fun a => misaligned ((start [(4, a)]).eaX 0 4) &&
    (List.range 4).all fun k => (start [(4, a)]).permitted true ((start [(4, a)]).eaX 0 4 + BitVec.ofNat 32 k) &&
      (start [(4, a)]).permitted false ((start [(4, a)]).eaX 0 4 + BitVec.ofNat 32 k)) = true := by decide +kernel
theorem witness_dcbz_refused : (start []).translateData true ((start []).eaX 1 2 &&& 0xFFFFFFE0) = .real 0 ⟨false, true, true, false, false⟩ ∧
    { start [] with dccr := 0xFFFFFFFF, dcwr := 0xFFFFFFFF }.translateData true ((start []).eaX 1 2 &&& 0xFFFFFFE0)
      = .real 0 ⟨true, false, true, false, false⟩ := ⟨rfl, rfl⟩

-- DataBusErrors: an error at the last byte of an operand with MSR[ME] = 1, at the first with MSR[ME] = 0; a width that a device
-- does not answer; a store to ROM
theorem failsAt_of {s : State} {store : Bool} {ea : Word} {n i : Nat} (hi : i < n) (h : (if ea.toNat % n = 0 then
    s.partFails store (ea, n) else s.partFails store (ea + BitVec.ofNat 32 i, 1)) = true) : FailsAt s store ea n i :=
  (Laws.failsAt_operand s store ea hi).2 h

theorem allDevice_of {s : State} {store : Bool} {ea : Word} {n : Nat} (h : ∀ k, k < n →
    s.permitted store (ea + BitVec.ofNat 32 k) = true ∧ s.isDevice (s.realData store (ea + BitVec.ofNat 32 k)) = true ∧
    (if ea.toNat % n = 0 then s.partFails store (ea, n) else s.partFails store (ea + BitVec.ofNat 32 k, 1)) = false) :
    s.allDevice store ea n := fun k hk => ⟨(h k hk).1, (h k hk).2.1, fun hf => by
  have := (Laws.failsAt_operand s store ea hk).1 hf
  rw [(h k hk).2.2] at this
  cases this⟩

theorem witness_data_bus_error : let s : State := { start [] with msr := 0x1000, memoryMap := [⟨3, 3, .hole⟩] }
    (⟨.lwz 3 1 0, 4, false, false, false, false⟩ : ScalarLoad) ∈ scalarLoads 3 1 2 0 false ∧
      dataReference (.lwz 3 1 0) s = some (false, 0, 4) ∧ (∀ k, k < 4 → s.permitted false (0 + BitVec.ofNat 32 k) = true) ∧
      ¬SkipsByte (.lwz 3 1 0) s 3 ∧ FailsAt s false 0 4 3 ∧ s.meBit = true :=
  ⟨by simp [scalarLoads], by rfl, by decide +kernel, by simp [SkipsByte], failsAt_of (by decide) (by decide +kernel), by rfl⟩
theorem witness_data_width : let s : State := { start [] with msr := 0x1000, memoryMap := [⟨0, 31, .device [1, 2] [1]⟩] }
    dataReference (.lmw 31 1 0) s = some (false, 0, 4) ∧ ¬SkipsByte (.lmw 31 1 0) s 0 ∧ FailsAt s false 0 4 0 ∧
      dataReference (.sth 3 1 0) s = some (true, 0, 2) ∧ FailsAt s true 0 2 1 ∧ (s.permitted false 0 && s.permitted true 1) = true :=
  ⟨by rfl, by simp [SkipsByte], failsAt_of (by decide) (by decide +kernel), by rfl, failsAt_of (by decide) (by decide +kernel),
    by decide +kernel⟩
theorem witness_data_bus_error_word : let s : State := { start [] with msr := 0x1000, memoryMap := [⟨3, 3, .hole⟩], reserve := true }
    misaligned (s.eaX 1 2) = false ∧ s.reserve = true ∧ s.meBit = true ∧
      ∀ store, (∀ k, k < 4 → s.permitted store (s.eaX 1 2 + BitVec.ofNat 32 k) = true) ∧ FailsAt s store (s.eaX 1 2) 4 3 :=
  ⟨by rfl, rfl, by rfl, fun store => ⟨by cases store <;> decide +kernel, failsAt_of (by decide) (by cases store <;> decide +kernel)⟩⟩
theorem witness_data_bus_error_block : let s : State := { start [] with msr := 0x1000, dccr := 0xFFFFFFFF, memoryMap := [⟨31, 31, .hole⟩] }
    s.permitted true (s.eaX 1 2 &&& 0xFFFFFFE0) = true ∧ s.meBit = true ∧
      s.translateData true (s.eaX 1 2 &&& 0xFFFFFFE0) = .real 0 ⟨false, false, true, false, false⟩ ∧
      FailsAt s true (s.eaX 1 2 &&& 0xFFFFFFE0) 1 31 :=
  ⟨by decide +kernel, by rfl, by decide +kernel, by
    simp only [FailsAt, Nat.mod_one, if_true, Nat.mul_one, Nat.div_one]
    exact (Laws.partFails_iff _ _ _ 1 (by decide)).1 (by decide +kernel)⟩
theorem witness_no_reservation : misaligned ((start []).eaX 1 2) = false ∧ (start []).reserve = false ∧
    ∀ k, k < 4 → (start []).permitted true ((start []).eaX 1 2 + BitVec.ofNat 32 k) = true := by decide +kernel
theorem witness_data_bus_error_masked : let s : State := { start [] with memoryMap := [⟨0, 0, .hole⟩, ⟨1, 0xFFFFFFFF, .rom⟩] }
    dataReference (.stw 3 1 0) s = some (true, 0, 4) ∧ dataReference (.lwz 3 1 0) s = some (false, 0, 4) ∧ s.meBit = false ∧
      Memory.wf s.mem = true ∧ FailsAt s true 0 4 0 ∧ FailsAt s false 0 4 3 ∧
      ∀ store k, k < 128 → s.permitted store (0 + BitVec.ofNat 32 k) = true ∧
        s.isDevice (s.realData store (0 + BitVec.ofNat 32 k)) = false :=
  ⟨by rfl, by rfl, rfl, rfl, failsAt_of (by decide) (by decide +kernel), failsAt_of (by decide) (by decide +kernel), by decide +kernel⟩
theorem test_rom_drops_store : after (exec (.stw 5 1 0) { start [(5, 0x11223344)] with memoryMap := [⟨2, 9, .rom⟩] }) (bytes · 0 4)
    = some [0x11, 0x22, 0, 0] := by decide +kernel

-- DeviceAccesses: an aligned and a misaligned operand, a whole string, a block
/-- A state whose storage below 0x10000 is a device. -/
def deviceStart (gprs : List (Reg × Word)) : State := { start gprs with memoryMap := [⟨0, 0xFFFF, .device [1, 2, 4] [1, 2, 4]⟩] }

theorem witness_devices : let s : State := deviceStart [(1, 5)]
    dataReference (.lwz 3 1 0) s = some (false, 5, 4) ∧ dataReference (.stw 3 1 3) s = some (true, 8, 4) ∧
      s.allDevice false 5 4 ∧ s.allDevice true 8 4 ∧ (∀ j, j < 32 → s.allDevice true (0 + BitVec.ofNat 32 (4 * j)) 4) ∧
      (∀ k, k < 127 → s.allDevice false (0 + BitVec.ofNat 32 k) 1) ∧ misaligned (s.eaX 2 3) = false :=
  ⟨by rfl, by rfl, allDevice_of (by decide +kernel), allDevice_of (by decide +kernel),
    fun j hj => allDevice_of (by revert j; decide +kernel),
    fun k hk => allDevice_of (by revert k; decide +kernel), by rfl⟩
theorem witness_device_block : { deviceStart [] with dccr := 0xFFFFFFFF }.translateData true ((deviceStart []).eaX 1 2 &&& 0xFFFFFFE0)
    = .real 0 ⟨false, false, true, false, false⟩ := rfl
theorem test_device_misaligned_store : after (exec (.sth 5 1 1) (deviceStart [(5, 0x11223344)])) (fun t => (t.hostLog, t.mem))
    = some ([.store 2 [0x44], .store 1 [0x33]], []) := by decide +kernel
theorem test_device_aligned_store : after (exec (.stwbrx 5 0 4 false) (deviceStart [(5, 0x11223344)])) (·.hostLog)
    = some [.store 0 [0x44, 0x33, 0x22, 0x11]] := by decide +kernel
/-- An aligned store that starts in a device is the device's whole; one that starts in RAM drops its bytes in the device. -/
theorem test_store_over_kinds :
    let stores (first last : Nat) := after (exec (.stw 5 0 4) { start [(5, 0x11223344)] with
      memoryMap := [⟨first, last, .device [4] [4]⟩] }) fun t => (t.hostLog, bytes t 4 4)
    stores 4 5 = some ([.store 4 [0x11, 0x22, 0x33, 0x44]], [0, 0, 0, 0]) ∧ stores 6 6 = some ([], [0x11, 0x22, 0, 0x44]) := by
  decide +kernel
/-- A word load of a device that answers bytes only: with MSR[ME] = 1 a machine check that the device does not see. -/
theorem test_device_width : after (exec (.lwz 3 1 0) { start [] with msr := 0x1000, memoryMap := [⟨0, 9, .device [1] [1]⟩] })
    (fun t => (t.entry, t.hostLog)) = some (some .machineCheckData, []) := by decide +kernel
theorem test_device_lmw : after (exec (.lmw 29 30 0) (deviceStart [])) (·.hostLog) = some [.load 8 4, .load 0 4] := by decide +kernel

-- TlbSearchAndRealAddress, ZoneProtection, TlbSearchInstruction: a hit, a miss, two matches
theorem witness_lookup : (translated page).lookup 0x10FFF = .hit 0 page ∧ (translated page).lookup 0x11000 = .miss ∧
    { translated page with tlb := (State.reset.tlb.set 0 page).set 63 page }.lookup 0x10000 = .duplicate ∧
    (translated page).irBit = true ∧ (translated page).lookup (translated page).pc = .hit 0 page ∧ page.ex = true ∧ page.g = false ∧
    (translated page).prBit = false ∧ (translated page).drBit = true ∧ State.reset.drBit = false := by decide +kernel

-- SummaryOverflowIsSticky
theorem witness_summary_overflow : let s : State := { start [] with xer := 0x80000000 }
    xerSo s.xer = true ∧ (∃ t, exec (.add 3 4 5 true true) s = .next t) ∧ (∃ t, exec (.mtspr 3 1 false) s = .next t) ∧
      xerSo (s.reg 3) = false := ⟨rfl, ⟨_, rfl⟩, ⟨_, rfl⟩, rfl⟩

-- DivisionsAreExact: a quotient, the overflow, a zero divisor
theorem witness_divisions : let s := start [(4, 0x80000000), (5, 0xFFFFFFFF), (6, 1)]
    (s.reg 6 ≠ 0 ∧ ¬((s.reg 4).toInt = -2 ^ 31 ∧ (s.reg 6).toInt = -1)) ∧
      ((s.reg 4).toInt = -2 ^ 31 ∧ (s.reg 5).toInt = -1) ∧ s.reg 7 = 0 := by decide +kernel

-- BranchesGoToTheirTarget: bcctr in its valid and its invalid form
theorem witness_bcctr_forms : (20#5).getMsbD 2 = true ∧ (16#5).getMsbD 2 = false := by decide

-- CrLogicalWritesOneBit
theorem witness_cr_logical_word : (opcd 0x4C053202).toNat = 19 ∧ (xo10 0x4C053202).toNat = 257 ∧ (opcd 0x4C1C0000).toNat = 19 ∧
    (xo10 0x4C1C0000).toNat = 0 := by decide

-- NoOperationsOnlyAdvance, CacheInstructionsWithAnEffect
theorem witness_cache : (start []).permitted false ((start []).eaX 1 2) = true ∧ (start []).permitted true ((start []).eaX 1 2) = true ∧
    (start []).prBit = false ∧ misaligned ((start []).eaX 1 2) = false := by decide +kernel
theorem witness_dcbz : let s : State := { start [(2, 0xFFFFFFFF)] with dccr := 0xFFFFFFFF }
    Memory.wf s.mem = true ∧ s.allAccessible true (byteAddresses (s.eaX 1 2 &&& 0xFFFFFFE0) 32) = true ∧
      s.translateData true (s.eaX 1 2 &&& 0xFFFFFFE0) = .real 0xFFFFFFE0 ⟨false, false, true, false, false⟩ := by decide +kernel

-- MachineStateMovesAndReturns, PrivilegedInstructionsTrap, TlbWordsMove: both modes, the last entry
theorem witness_modes : (start []).prBit = false ∧ { start [] with msr := 0x4000 }.prBit = true := ⟨rfl, rfl⟩
theorem witness_tlb_index : (start [(4, 63)]).prBit = false ∧ ((start [(4, 63)]).reg 4).toNat % 64 = 63 := by decide +kernel

-- DcrMoves: a mapped and an unmapped number
theorem witness_dcrs : { start [] with dcrSpace := [0x123] }.prBit = false ∧
    0x123#10 ∈ ({ start [] with dcrSpace := [0x123] } : State).dcrSpace ∧ 0x123#10 ∉ (start []).dcrSpace := by decide +kernel
theorem test_mtdcr : after (exec (.mtdcr 3 0x123 false) { start [(3, 7)] with dcrSpace := [0x123] }) (·.hostLog)
    = some [.dcrWrite 0x123 7] := by decide +kernel

-- SprReads, SprWrites: a privileged and an unprivileged number, numbers of no register
theorem witness_spr_numbers : (0x3D4#10).getLsbD 4 = true ∧ (start []).prBit = false ∧ (0x001#10).getLsbD 4 = false ∧
    (0x000#10).toNat ∉ readableSprs ∧ (0x3FF#10).toNat ∉ writableSprs ∧ (0x104#10).toNat ∉ writableSprs := by decide +kernel
theorem witness_dbcr0_write : (start [(3, 0x0FFFFFFF)]).reg 3 &&& 0x30000000 = 0 ∧ (start [(3, 0x10000000)]).reg 3 &&& 0x30000000 ≠ 0 := by
  decide +kernel

-- SystemCallEntry
theorem witness_sc : misaligned (start []).pc = false := rfl

-- TrapsOnTheirCondition: a condition that holds and one that does not, and the debug set-ups
theorem witness_trap : (start [(4, 0xFFFFFFFF)]).tdeBit = false ∧ ((start [(4, 0xFFFFFFFF)]).reg 4).toInt < ((start []).reg 5).toInt ∧
    (16#5).getMsbD 0 = true ∧ ∀ j, j < 5 → (0#5).getMsbD j = false := by decide +kernel
theorem witness_trap_debug : let s : State := { start [] with dbcr0 := 0x41000000 }
    s.tdeBit = true ∧ s.idmBit = true ∧ s.externalDebugMode = false ∧ s.deBit = false ∧
      { s with msr := 0x200 }.deBit = true ∧ { s with dbcr0 := 0x81000000 }.externalDebugMode = true := ⟨rfl, rfl, rfl, rfl, rfl, rfl⟩

-- ProblemStateIsConfined, OnlyStoresChangeStorage
theorem witness_problem : let s : State := { start [(3, 7)] with msr := 0x4000 }
    s.prBit = true ∧ s.entry = none ∧ ∃ t, exec (.stw 3 1 0) s = .next t ∧ t.entry = none ∧
      Memory.read t.mem 3 ≠ Memory.read s.mem 3 := ⟨rfl, rfl, _, rfl, rfl, by decide +kernel⟩

-- TimerTick, WatchdogTimeouts: frozen and running, the four rows of the table, the least and the greatest period
theorem witness_timers_frozen : { start [] with dbcr0 := 1, dbsr := 0x80000000 }.timersFrozen = true ∧ (start []).timersFrozen = false := by
  decide +kernel
theorem witness_watchdog : WatchdogTimeout { start [] with tbl := 0xFFFF } ∧ WatchdogTimeout { start [] with tbl := 0x0FFFFFFF, tcr := 0xC0000000 } ∧
    ¬WatchdogTimeout { start [] with tbl := 0xFFFFFFFF } ∧ FitEvent { start [] with tbl := 0xFF } ∧
    FitEvent { start [] with tbl := 0xFFFFF, tcr := 0x03000000 } := by
  unfold WatchdogTimeout FitEvent NextTickRaises
  decide +kernel
theorem witness_watchdog_rows : bitOf 0xC0000000 0 = true ∧ bitOf 0xC0000000 1 = true ∧ bitOf 0x40000000 0 = false ∧
    bitOf 0x80000000 1 = false ∧ 0x30000000#32 &&& 0x30000000 ≠ 0 := by decide

-- ResetLeavesTheTable
theorem witness_host_reset : ({ start [] with inputs := [⟨0, false, false, some .chip, false⟩] }.inputs.headD HostInput.idle).reset
    = some .chip := rfl

-- AddressCompareInterrupts: IAC1 and IAC2 by their range, IAC3 by its address, recorded and with MSR[DE] = 1; no hit
theorem witness_address_compare : let s : State := { start [] (code 0x38600001) with
      dbcr0 := 0x40E80000, iac1 := 0x10000, iac2 := 0x10004, iac3 := 0x10000 }
    s.inputs = [] ∧ s.debugRefusal = none ∧ s.idmBit = true ∧ s.externalDebugMode = false ∧
      pendingInterrupts HostInput.idle { s with entry := none } = [] ∧ s.weBit = false ∧ BitsAre (IacHits s) 0x06080000 ∧
      s.deBit = false ∧ s.fetch = .ok [0x38, 0x60, 0, 1] ∧ s.dbcr0 &&& 0x0F000000 = 0 ∧ s.dbcr1 &&& 0xF0000000 = 0 ∧ ∃ t,
        exec (.addi 3 0 1) (State.afterFetch { s with entry := none, dbsr := s.dbsr ||| 0x06180000 }) = .next t ∧
        t.dbcr0 = s.dbcr0 :=
  ⟨rfl, rfl, rfl, rfl, rfl, rfl, Laws.iacEvents_bits _, rfl, rfl, rfl, rfl, _, rfl, rfl⟩
theorem witness_address_compare_enabled : let s : State := { start [] with msr := 0x200, dbcr0 := 0x40040000, iac4 := 0x10000 }
    s.debugRefusal = none ∧ s.deBit = true ∧ pendingInterrupts HostInput.idle { s with entry := none } = [] ∧
      BitsAre (IacHits s) 0x00040000 := ⟨rfl, rfl, rfl, Laws.iacEvents_bits _⟩
theorem witness_address_compare_misses : let s : State := { start [] with msr := 0x200, dbcr0 := 0x40C00000, iac1 := 4 }
    s.deBit = true ∧ pendingInterrupts HostInput.idle { s with entry := none } = [] ∧ BitsAre (IacHits s) 0 :=
  ⟨rfl, rfl, Laws.iacEvents_bits _⟩
/-- The ends of an inclusive and an exclusive range, of each pair: the lower one belongs to the inclusive range, the upper does not. -/
theorem test_address_ranges : [(0x10000, 0x10004), (0xFFFC, 0x10000), (0x10004, 0xFFFFFFFC)].map (fun (p : Word × Word) =>
      [0x40A00000, 0x40B00000, 0x40060000, 0x40070000].map fun (dbcr0 : Word) =>
        State.iacEvents { start [] with dbcr0 := dbcr0, iac1 := p.1, iac2 := p.2, iac3 := p.1, iac4 := p.2 })
    = [[0x04000000, 0, 0x00040000, 0], [0, 0x04000000, 0, 0x00040000], [0, 0x04000000, 0, 0x00040000]] := by decide +kernel

-- DebugEvents: the unconditional event, a recorded one, a branch, a load that hits and one that does not, a Program interrupt
/-- Internal debug mode with these enables, at an instruction word. -/
def debugging (enables0 enables1 msr : Word) (w : Word) : State :=
  { start [] (code w) with dbcr0 := 0x40000000 ||| enables0, dbcr1 := enables1, msr := msr, dbsr := 0 }

/-- The state in which the step of an idle input fetches. -/
def atFetch (s : State) : State := { s with inputs := s.inputs.tail, entry := none }

theorem witness_unconditional : let s : State := { debugging 0 0 0x200 0 with inputs := [⟨0, false, false, none, true⟩] }
    s.inputs.headD HostInput.idle = ⟨0, false, false, none, true⟩ ∧ s.idmBit = true ∧ s.externalDebugMode = false ∧
      s.debugRefusal = none ∧ s.deBit = true ∧ { s with msr := 0 }.deBit = false := ⟨rfl, rfl, rfl, rfl, rfl, rfl⟩
theorem witness_recorded_event : let s : State := { debugging 0 0 0x200 0 with dbsr := 0x40100000 }
    s.inputs.headD HostInput.idle = ⟨0, false, false, none, false⟩ ∧ s.debugRefusal = none ∧ s.deBit = true ∧
      s.dbsr &&& 0xFFFC0000 ≠ 0 ∧ s.dbsr &&& 0x2E0C0000 = 0 ∧ s.ceBit = false := by decide +kernel
theorem witness_recorded_compare : let s : State := { debugging 0 0 0x20200 0 with dbsr := 0x04100000, inputs := [⟨0, true, true, none, false⟩] }
    s.inputs.headD HostInput.idle = ⟨0, true, true, none, false⟩ ∧ s.debugRefusal = none ∧ s.deBit = true ∧ s.ceBit = true ∧
      s.dbsr &&& 0xFFFC0000 ≠ 0 ∧ s.dbsr &&& 0x2E0C0000 ≠ 0 := by decide +kernel
theorem witness_branch_event : let s : State := debugging 0x04000000 0 0 0x48000040
    s.debugRefusal = none ∧ pendingInterrupts HostInput.idle (atFetch s) = [] ∧ s.weBit = false ∧ s.dbcr0 &&& 0x00CC0000 = 0 ∧
      (atFetch s).fetch = .ok [0x48, 0, 0, 0x40] ∧ decode [0x48, 0, 0, 0x40] = .ok (.b 16 false false, []) ∧
      bitOf s.dbcr0 5 = true ∧ BranchesAway (.b 16 false false) (atFetch s).afterFetch ∧ s.deBit = false ∧
      ∃ t, exec (.b 16 false false) { (atFetch s).afterFetch with dbsr := s.dbsr ||| 0x40100000 } = .next t :=
  ⟨by rfl, by rfl, by rfl, by rfl, by rfl, by rfl, by rfl, .inl ⟨16, false, false, rfl⟩, by rfl, _, rfl⟩
theorem witness_data_compare_event : let s : State := debugging 0x08000000 0x80000000 0x200 0x80610000
    s.debugRefusal = none ∧ pendingInterrupts HostInput.idle (atFetch s) = [] ∧ (atFetch s).fetch = .ok [0x80, 0x61, 0, 0] ∧
      decode [0x80, 0x61, 0, 0] = .ok (.lwz 3 1 0, []) ∧ s.dbcr0 &&& 0x00CC0000 = 0 ∧ bitOf s.dbcr0 5 = false ∧
      s.dbcr1 &&& 0x0000FF00 = 0 ∧ (∃ t, exec (.lwz 3 1 0) (atFetch s).afterFetch = .next t ∧ t.entry = none ∧
        t.dbcr0 = s.dbcr0 ∧ t.externalDebugMode = false ∧ t.deBit = s.deBit) ∧
      BitsAre (DacHits (.lwz 3 1 0) (atFetch s).afterFetch) 0x01000000 ∧
      BitsAre (DacHits (.lwz 3 1 0) { (atFetch s).afterFetch with dac1 := 4 }) 0 :=
  ⟨by rfl, by rfl, by rfl, by rfl, by rfl, by rfl, by rfl, ⟨_, rfl, by rfl, by rfl, by rfl, by rfl⟩,
    Laws.dacEvents_bits _ _ State.reset (by decide), Laws.dacEvents_bits _ _ State.reset (by decide)⟩
/-- A word access at 6 presents the addresses 6 and 8: each compare, each size, and both ends of a range. -/
theorem test_data_compares :
    let events (store : Bool) (enables : Word) (dac1 dac2 : Word) : Option Word :=
      after (step { debugging 0 enables 0x200 (if store then 0x90600006 else 0x80600006) with dac1 := dac1, dac2 := dac2 }) (·.dbsr)
    [events false 0xF0000000 6 8, events true 0xF0000000 8 7, events true 0x30000000 7 6, events true 0x34000000 7 0,
      events true 0x38000000 11 0, events true 0x33000000 0 31, events false 0xC0000000 7 32]
      = [some 0x01400000, some 0x00800000, some 0x00200000, some 0x00800000, some 0x00800000, some 0x00200000, some 0] ∧
    [events false 0xC0800000 8 9, events false 0xC0800000 7 8, events true 0x20C00000 6 8, events true 0x10C00000 6 9]
      = [some 0x01400000, some 0, some 0x00800000, some 0] := by decide +kernel
theorem witness_exception_event : let s : State := debugging 0x02000000 0 0x4200 0x7C6000A6
    s.debugRefusal = none ∧ pendingInterrupts HostInput.idle (atFetch s) = [] ∧ (atFetch s).fetch = .ok [0x7C, 0x60, 0, 0xA6] ∧
      decode [0x7C, 0x60, 0, 0xA6] = .ok (.mfmsr 3 false, []) ∧ bitOf s.dbcr0 4 = false ∧ s.dbcr1 &&& 0xF0000000 = 0 ∧
      bitOf s.dbcr0 6 = true ∧ bitOf s.dbcr0 5 = false ∧
      ∃ t, exec (.mfmsr 3 false) (atFetch s).afterFetch = .next t ∧ t.entry = some .program ∧ t.dbcr0 = s.dbcr0 ∧
        t.externalDebugMode = false ∧ t.deBit = s.deBit :=
  ⟨by rfl, by rfl, by rfl, by rfl, by rfl, by rfl, by rfl, by rfl, _, rfl, by rfl, by rfl, by rfl, by rfl⟩

-- DataValueCompares: a store over two words, an aligned load
/-- Internal debug mode at a word, with DAC1 enabled for loads and stores, DVC1 in a mode with byte enables, and r3. -/
def comparing (mode bytes msr dac dvc w : Word) : State :=
  { debugging 0 (0xA0000000 ||| (mode <<< 18) ||| (bytes <<< 12)) msr w with
    dac1 := dac, dvc1 := dvc, gpr := State.reset.gpr.set 3 0x11223344 }

theorem witness_value_compare : let s := comparing 1 3 0x200 2 0x1122 0x90600002
    let v := (atFetch s).afterFetch
    s.idmBit = true ∧ s.externalDebugMode = false ∧ s.debugRefusal = none ∧ Memory.wf s.mem = true ∧
      pendingInterrupts HostInput.idle (atFetch s) = [] ∧ s.weBit = false ∧ s.dbcr0 &&& 0x08CC0000 = 0 ∧
      (atFetch s).fetch = .ok [0x90, 0x60, 0, 2] ∧ decode [0x90, 0x60, 0, 2] = .ok (.stw 3 0 2, []) ∧
      Instr.stw 3 0 2 ∈ scalarReferences 3 0 0 2 false ∧ dataReference (.stw 3 0 2) v = some (true, 2, 4) ∧
      v.allAccessible true (byteAddresses 2 4) = true ∧ DacMatches s false true 2 ∧
      (∀ k, 0 < k → k < 4 → (2 + BitVec.ofNat 32 k).toNat % 4 = 0 → ¬DacMatches s false true (2 + BitVec.ofNat 32 k)) ∧
      bitOf s.dbcr1 3 = false ∧ s.dbcr1.toNat / 2 ^ 18 % 4 ≠ 0 ∧ bitOf s.dbcr1 18 = true ∧ s.deBit = true ∧
      ∃ t, exec (.stw 3 0 2) v = .next t :=
  ⟨by rfl, by rfl, by rfl, by decide +kernel, by rfl, by rfl, by decide +kernel, by rfl, by rfl, by decide, by rfl,
    by decide +kernel, (Laws.addressHits_iff _ _ _ _).1 (by decide),
    by simp only [← Laws.addressHits_iff]; intro k h0 h4; interval_cases k <;> decide +kernel, by rfl, by decide +kernel, by rfl, by rfl, _, rfl⟩
/-- As `comparing`, with DAC2 and DVC2, the block of a word (DBCR1[D2S] = 10). -/
def comparing2 (mode bytes msr dac dvc w : Word) : State :=
  { debugging 0 (0x52000000 ||| (mode <<< 16) ||| (bytes <<< 8)) msr w with
    dac2 := dac, dvc2 := dvc, gpr := State.reset.gpr.set 3 0x11223344 }

theorem witness_value_compare_second : let s := comparing2 2 8 0x200 3 0x12000000 0x80800000
    s.debugRefusal = none ∧ pendingInterrupts HostInput.idle (atFetch s) = [] ∧ (atFetch s).fetch = .ok [0x80, 0x80, 0, 0] ∧
      decode [0x80, 0x80, 0, 0] = .ok (.lwz 4 0 0, []) ∧ dataReference (.lwz 4 0 0) (atFetch s).afterFetch = some (false, 0, 4) ∧
      DacMatches s true false 0 ∧ bitOf s.dbcr1 0 = false ∧ s.dbcr1.toNat / 2 ^ 16 % 4 ≠ 0 ∧ bitOf s.dbcr1 20 = true ∧
      ∃ t, exec (.lwz 4 0 0) (atFetch s).afterFetch = .next t :=
  ⟨by rfl, by rfl, by rfl, by rfl, by rfl, (Laws.addressHits_iff _ _ _ _).1 (by decide), by rfl, by decide +kernel, by rfl, _, rfl⟩
theorem test_value_compare_second : [0x200, 0].map (fun msr =>
      after (step (comparing2 1 3 msr 3 0x1122 0x90600002)) fun t => (t.dbsr, bytes t 0 6))
    = [some (0x00200000, [0, 0, 0x11, 0x22, 0, 0]), some (0x00300000, [0, 0, 0x11, 0x22, 0x33, 0x44])] ∧
    [(0x12000000, 0x80800000), (0x13000000, 0x80800000)].map (fun (p : Word × Word) =>
      let s := comparing2 2 8 0x200 3 p.1 p.2
      after (step { s with mem := storeInstruction s.mem 0 false 0x12345678 }) (·.dbsr)) = [some 0x00400000, some 0] := by
  decide +kernel
/-- The stored halfword in the first word matches: with MSR[DE] = 1 the second word is not stored, with MSR[DE] = 0 it is. -/
theorem test_value_compare_store : [0x200, 0].map (fun msr =>
      after (step (comparing 1 3 msr 2 0x1122 0x90600002)) fun t => (t.dbsr, bytes t 0 6, t.pc))
    = [some (0x00800000, [0, 0, 0x11, 0x22, 0, 0], 0x10004), some (0x00900000, [0, 0, 0x11, 0x22, 0x33, 0x44], 0x10004)] := by
  decide +kernel
/-- lwz 4,0(0) of the bytes 12 34 56 78 against 12 00 56 78: all bytes, one byte, the low halfword, a disabled byte, a byte load. -/
theorem test_value_compare_load :
    [((1, 15), 0x80800000), ((2, 15), 0x80800000), ((3, 15), 0x80800000), ((1, 11), 0x80800000), ((1, 12), 0x88800000)].map (fun p =>
      let s := comparing p.1.1 p.1.2 0x200 0 0x12005678 p.2
      after (step { s with mem := storeInstruction s.mem 0 false 0x12345678 }) (·.dbsr))
    = [some 0, some 0x01000000, some 0x01000000, some 0x01000000, some 0] := by decide +kernel

end Sys2Proof.Tests
end

section
/-! PROOF. What holds of every next state of an outcome, and what the checks before an effect can do. -/
namespace Sys2Proof.Proofs
open Sys2Proof Sys2Proof.Machine Sys2Proof.Laws

/-! ## The next states of an outcome -/

/-- Every next state of an outcome has the property P; a fault and a refusal have no next state. -/
inductive NextHas (P : State → Prop) : Result → Prop
  | next {t : State} (h : P t) : NextHas P (.next t)
  | fault (e : Fault) : NextHas P (.fault e)
  | refused (e : Refusal) : NextHas P (.refused e)

theorem NextHas.of_eq_next {P : State → Prop} {r : Result} {t : State} (h : NextHas P r) (e : r = .next t) : P t := by
  subst e
  cases h
  assumption

theorem NextHas.mono {P Q : State → Prop} {r : Result} (h : NextHas P r) (hPQ : ∀ t, P t → Q t) : NextHas Q r := by
  cases h with
  | next h => exact .next (hPQ _ h)
  | fault e => exact .fault e
  | refused e => exact .refused e

/-! ## Interrupts and access checks -/

/-- Some interrupt has been taken in `s`. -/
def TakesSome (s t : State) : Prop := ∃ k saved, Takes k saved s t

/-- What may stop an access in `s`: nothing, an interrupt taken there, or a refusal. -/
inductive StopsByInterrupt (s : State) : Option Result → Prop
  | none : StopsByInterrupt s none
  | some {r : Result} (h : NextHas (TakesSome s) r) : StopsByInterrupt s (some r)

theorem takesSome_programInterrupt (c : ProgramCause) (s : State) : TakesSome s (programInterrupt c s) :=
  ⟨_, _, (programInterrupt_takes c s).1⟩

theorem takesSome_systemCallInterrupt (s : State) : TakesSome s (systemCallInterrupt s) := ⟨_, _, takes_takeInterrupt ..⟩

theorem takesSome_alignmentInterrupt (ea : Word) (s : State) : TakesSome s (alignmentInterrupt ea s) := ⟨_, _, takes_of_agree rfl⟩

theorem takesSome_dataMachineCheck (s : State) : TakesSome s (dataMachineCheck s) := ⟨_, _, takes_takeInterrupt ..⟩

theorem recordDebugEvents_frame (bits : Word) (s : State) :
    recordDebugEvents bits s = { s with dbsr := (recordDebugEvents bits s).dbsr } := by
  unfold recordDebugEvents
  split <;> rfl

/-- A taken trap is a Program or a Debug interrupt, or is refused to an external tool. -/
theorem nextHas_trap (s : State) : NextHas (TakesSome s) (trap s) := by
  unfold trap
  split
  · exact .refused _
  · split
    · dsimp only
      rw [recordDebugEvents_frame]
      split
      · exact .next ⟨_, _, takes_of_agree rfl⟩
      · exact .next ⟨_, _, takes_of_agree rfl⟩
    · exact .next (takesSome_programInterrupt _ _)

theorem translationStopAt_stops (s : State) (store : Bool) (dear ea : Word) :
    StopsByInterrupt s (translationStopAt s store dear ea) := by
  unfold translationStopAt
  split
  · exact .none
  · exact .some (.next ⟨_, _, takes_of_agree rfl⟩)
  · exact .some (.next ⟨_, _, takes_of_agree rfl⟩)
  · exact .some (.refused _)

theorem translationStop_stops (s : State) (store : Bool) (eas : List Word) :
    StopsByInterrupt s (translationStop s store eas) := by
  induction eas with
  | nil => exact .none
  | cons ea eas ih =>
    unfold translationStop
    split
    · rename_i r h
      exact h ▸ translationStopAt_stops s store ea ea
    · exact ih

theorem busStop_stops (s : State) (store : Bool) (parts : List (Word × Nat)) : StopsByInterrupt s (busStop s store parts) := by
  unfold busStop
  split
  · exact .some (.next (takesSome_dataMachineCheck s))
  · exact .none

theorem dataStop_stops (s : State) (store : Bool) (eas : List Word) (parts : List (Word × Nat)) :
    StopsByInterrupt s (dataStop s store eas parts) := by
  unfold dataStop
  split
  · rename_i r h
    exact h ▸ translationStop_stops s store eas
  · exact busStop_stops s store parts

theorem alignmentStop_stops (s : State) (store : Bool) (ea : Word) (eas : List Word) :
    StopsByInterrupt s (alignmentStop s store ea eas) := by
  unfold alignmentStop
  split
  · rename_i r h
    exact h ▸ translationStop_stops s store eas
  · split
    · exact .some (.next (takesSome_alignmentInterrupt ea s))
    · exact .none

/-- An effect that an access's checks may stop. -/
theorem nextHas_unlessStopped {P : State → Prop} {s : State} {stop : Option Result} {effect : Result}
    (hstop : StopsByInterrupt s stop) (htakes : ∀ t, TakesSome s t → P t) (heffect : NextHas P effect) :
    NextHas P (unlessStopped stop effect) := by
  cases hstop with
  | none => exact heffect
  | some h => exact h.mono htakes

/-- An effect that only supervisor state has. -/
theorem nextHas_privileged {P : State → Prop} {s : State} {effect : Result} (htakes : ∀ t, TakesSome s t → P t)
    (heffect : NextHas P effect) : NextHas P (privileged s effect) := by
  unfold privileged
  split
  · exact .next (htakes _ (takesSome_programInterrupt _ s))
  · exact heffect

theorem nextHas_privilegedIf {P : State → Prop} {s : State} {effect : Result} (p : Bool) (htakes : ∀ t, TakesSome s t → P t)
    (heffect : NextHas P effect) : NextHas P (privilegedIf p s effect) := by
  cases p
  · exact heffect
  · exact nextHas_privileged htakes heffect

end Sys2Proof.Proofs
end

section
/-! PROOF. XER[SO] is sticky (00_scope.md R13) and CR0 of a record form (R12). -/
namespace Sys2Proof.Proofs
open Sys2Proof Sys2Proof.Machine Sys2Proof.Laws

/-! ## Outcomes that leave XER alone -/

/-- Every next state has the XER of `s`. -/
def XerKept (s : State) (r : Result) : Prop := NextHas (fun t => t.xer = s.xer) r

theorem takesSome_xer {s : State} : ∀ t, TakesSome s t → t.xer = s.xer := by
  rintro t ⟨k, saved, -, -, -, -, h⟩
  rw [h]

@[simp] theorem freeRegs_xer (s : State) (rs : List Reg) : (s.freeRegs rs).xer = s.xer := by
  rw [freeRegs_eq]

theorem xerKept_next {s t : State} (h : t.xer = s.xer) : XerKept s (.next t) := .next h

/-- The end of an instruction without a record bit. -/
theorem xerKept_finish {s t : State} {nr : Bool} (h : t.xer = s.xer) : XerKept s (.next (t.finish nr)) :=
  xerKept_next ((finish_xer t nr).trans h)

theorem xerKept_unlessStopped {s : State} {stop : Option Result} {effect : Result} (hstop : StopsByInterrupt s stop)
    (h : XerKept s effect) : XerKept s (unlessStopped stop effect) := nextHas_unlessStopped hstop takesSome_xer h

theorem xerKept_privileged {s : State} {effect : Result} (h : XerKept s effect) : XerKept s (privileged s effect) :=
  nextHas_privileged takesSome_xer h

/-! ## Storage forms -/

theorem xerKept_loadForm (rt : Reg) (ea : Word) (n : Nat) (extend : Word → Word) (nr : Bool) (s : State) :
    XerKept s (loadForm rt ea n extend nr s) := xerKept_unlessStopped (dataStop_stops ..) (xerKept_finish rfl)

theorem xerKept_loadUpdateForm (rt ra : Reg) (ea : Word) (n : Nat) (extend : Word → Word) (nr : Bool) (s : State) :
    XerKept s (loadUpdateForm rt ra ea n extend nr s) :=
  xerKept_unlessStopped (dataStop_stops ..) (xerKept_finish (by split <;> rfl))

theorem xerKept_storeForm (ea : Word) (n : Nat) (v : Word) (nr : Bool) (s : State) : XerKept s (storeForm ea n v nr s) :=
  xerKept_unlessStopped (dataStop_stops ..) (xerKept_finish rfl)

theorem xerKept_storeUpdateForm (ra : Reg) (ea : Word) (n : Nat) (v : Word) (nr : Bool) (s : State) :
    XerKept s (storeUpdateForm ra ea n v nr s) :=
  xerKept_unlessStopped (dataStop_stops ..) (xerKept_finish (by split <;> rfl))

theorem xerKept_execLmw (rt ra : Reg) (d : BitVec 16) (s : State) : XerKept s (execLmw rt ra d s) :=
  xerKept_unlessStopped (dataStop_stops ..) (xerKept_next (by rw [advance_xer, freeRegs_xer]; rfl))

theorem xerKept_execStmw (rs ra : Reg) (d : BitVec 16) (s : State) : XerKept s (execStmw rs ra d s) :=
  xerKept_unlessStopped (dataStop_stops ..) (xerKept_next rfl)

theorem xerKept_stringLoadForm (rt : Reg) (bases : List Reg) (ea : Word) (count : Nat) (nr : Bool) (s : State) :
    XerKept s (stringLoadForm rt bases ea count nr s) :=
  xerKept_unlessStopped (dataStop_stops ..) (xerKept_finish (by rw [freeRegs_xer]; rfl))

theorem xerKept_stringStoreForm (rs : Reg) (ea : Word) (count : Nat) (nr : Bool) (s : State) :
    XerKept s (stringStoreForm rs ea count nr s) := xerKept_unlessStopped (dataStop_stops ..) (xerKept_finish rfl)

theorem xerKept_execLwarx (rt ra rb : Reg) (nr : Bool) (s : State) : XerKept s (execLwarx rt ra rb nr s) :=
  xerKept_unlessStopped (alignmentStop_stops ..) (xerKept_unlessStopped (busStop_stops ..) (xerKept_finish rfl))

theorem xerKept_execStwcx (rs ra rb : Reg) (s : State) : XerKept s (execStwcx rs ra rb s) := by
  refine xerKept_unlessStopped (alignmentStop_stops ..) ?_
  split
  · exact xerKept_unlessStopped (busStop_stops ..) (xerKept_next rfl)
  · exact xerKept_next rfl

/-! ## Cache, branch, TLB and processor management -/

theorem xerKept_cacheForm (store : Bool) (ea : Word) (nr : Bool) (s : State) : XerKept s (cacheForm store ea nr s) :=
  xerKept_unlessStopped (translationStopAt_stops ..) (xerKept_finish rfl)

theorem xerKept_execDcbz (ra rb : Reg) (nr : Bool) (s : State) : XerKept s (execDcbz ra rb nr s) := by
  refine xerKept_unlessStopped (translationStopAt_stops ..) ?_
  split
  · exact xerKept_next (takesSome_xer _ (takesSome_alignmentInterrupt _ s))
  · exact xerKept_unlessStopped (busStop_stops ..) (xerKept_finish rfl)

theorem xerKept_execDcread (rt ra rb : Reg) (nr : Bool) (s : State) : XerKept s (execDcread rt ra rb nr s) :=
  xerKept_privileged (xerKept_unlessStopped (alignmentStop_stops ..) (xerKept_finish rfl))

theorem xerKept_execIcread (ra rb : Reg) (nr : Bool) (s : State) : XerKept s (execIcread ra rb nr s) :=
  xerKept_privileged (xerKept_unlessStopped (translationStopAt_stops ..) (xerKept_finish rfl))

theorem xerKept_execBcctr (bo bi : BitVec 5) (lk : Bool) (s : State) : XerKept s (execBcctr bo bi lk s) := by
  unfold execBcctr
  split <;> exact xerKept_next rfl

theorem xerKept_returnForm (address status : Word) (nr : Bool) (s : State) : XerKept s (returnForm address status nr s) :=
  xerKept_privileged (xerKept_next (by rw [markCr0_xer, returnFromInterrupt_xer]))

theorem xerKept_execTlbre (rt ra : Reg) (ws : BitVec 5) (nr : Bool) (s : State) : XerKept s (execTlbre rt ra ws nr s) :=
  xerKept_privileged (xerKept_finish (by rw [freeRegs_xer]; split <;> rfl))

theorem xerKept_execTlbsx (rt ra rb : Reg) (rc : Bool) (s : State) : XerKept s (execTlbsx rt ra rb rc s) := by
  refine xerKept_privileged ?_
  split
  · exact xerKept_next rfl
  · exact xerKept_next rfl
  · exact .refused _

/-- The state `u` is `s`, or `s` after an access to a device control register. -/
theorem xerKept_readForm {s u : State} (rt : Reg) (v : Option Word) (nr : Bool) (h : u.xer = s.xer) :
    XerKept s (readForm rt v nr u) := by
  cases v <;> exact xerKept_finish h

theorem afterDcr_xer (s : State) (n : BitVec 10) (a : HostAccess) : (s.afterDcr n a).xer = s.xer := by
  unfold State.afterDcr
  split <;> rfl

theorem xerKept_execMfspr (rt : Reg) (sprn : BitVec 10) (nr : Bool) (s : State) : XerKept s (execMfspr rt sprn nr s) :=
  nextHas_privilegedIf _ takesSome_xer (xerKept_readForm _ _ _ rfl)

theorem xerKept_execTw (tcond : BitVec 5) (ra rb : Reg) (nr : Bool) (s : State) : XerKept s (execTw tcond ra rb nr s) := by
  unfold execTw
  split
  · exact (nextHas_trap s).mono takesSome_xer
  · exact xerKept_finish rfl

theorem xerKept_execTwi (tcond : BitVec 5) (ra : Reg) (im : BitVec 16) (s : State) : XerKept s (execTwi tcond ra im s) := by
  unfold execTwi
  split
  · exact (nextHas_trap s).mono takesSome_xer
  · exact xerKept_next rfl

/-! ## mtspr -/

/-- Only the writers of XER and of DBCR0, which may reset the machine, change XER. -/
theorem sprWriter_xer : ∀ p ∈ sprWriters, p.1 ≠ 0x001 → p.1 ≠ 0x3F2 → ∀ v s, (p.2 v s).xer = s.xer := by
  simp only [sprWriters, List.forall_mem_cons]
  simp

theorem writeSpr_xer {n : Nat} (hxer : n ≠ 0x001) (hdbcr0 : n ≠ 0x3F2) (v : Word) (s : State) : (writeSpr n v s).xer = s.xer := by
  unfold writeSpr
  split
  · rename_i f hf
    obtain ⟨l₁, l₂, hl, -⟩ := List.lookup_eq_some_iff.1 hf
    exact sprWriter_xer (n, f) (by simp [hl]) hxer hdbcr0 v s
  · rfl

theorem writeSpr_xer_xer (v : Word) (s : State) : (writeSpr 0x001 v s).xer = v &&& xerMask := rfl

theorem xerSo_and_xerMask (v : Word) : xerSo (v &&& xerMask) = xerSo v := (bitOf_and ..).trans (Bool.and_true _)

/-- A write of DBCR0 without a reset request. -/
theorem writeSpr_dbcr0_xer {v : Word} (h : v &&& 0x30000000 = 0) (s : State) : (writeSpr 0x3F2 v s).xer = s.xer := by
  have hrst : v.extractLsb' 28 2 = 0 := by
    apply BitVec.eq_of_getLsbD_eq
    intro i hi
    have hbit := congrArg (·.getLsbD (28 + i)) h
    interval_cases i <;> simpa using hbit
  show (writeDbcr0 v s).xer = s.xer
  simp [writeDbcr0, hrst, resetTypeOf]

/-! ## XER[SO] -/

/-- Every next state keeps XER[SO] if it is set. -/
def SoSticky (s : State) (r : Result) : Prop := NextHas (fun t => xerSo s.xer = true → xerSo t.xer = true) r

theorem SoSticky.of_xerKept {s : State} {r : Result} (h : XerKept s r) : SoSticky s r := h.mono fun _ ht hso => ht ▸ hso

theorem soSticky_of_xerBecomes {s t : State} {ca ov : Option Bool} (h : XerBecomes ca ov s t) : SoSticky s (.next t) := by
  obtain ⟨-, -, hso, -⟩ := h
  exact .next fun hs => by simp [hso, hs]

/-- The arithmetic, logical, rotate and shift instructions end by writing a result. -/
theorem soSticky_writeResult (rt : Reg) (r : Word) (ca ov : Option Bool) (rc : Bool) (s : State) :
    SoSticky s (.next (s.writeResult rt r ca ov rc)) := soSticky_of_xerBecomes (xerBecomes _ _ _ _ rfl)

theorem soSticky_divideForm (rt : Reg) (quotient : Option Word) (oe rc : Bool) (s : State) :
    SoSticky s (divideForm rt quotient oe rc s) := by
  cases quotient with
  | none => exact soSticky_of_xerBecomes (xerBecomes s _ none (overflowIf oe true) rfl)
  | some q => exact soSticky_writeResult ..

/-- mtspr keeps a set XER[SO], but for an XER with 0 there and a DBCR0 that resets the machine. -/
theorem soSticky_execMtspr (rs : Reg) (sprn : BitVec 10) (nr : Bool) (s : State)
    (hxer : sprn = 0x001 → xerSo (s.reg rs) = true) (hdbcr0 : sprn = 0x3F2 → s.reg rs &&& 0x30000000 = 0) :
    SoSticky s (execMtspr rs sprn nr s) := by
  refine nextHas_privilegedIf _ (fun t ht hso => takesSome_xer t ht ▸ hso) (.next fun hso => ?_)
  rw [markCr0_xer]
  by_cases h1 : sprn = 0x001
  · subst h1
    calc xerSo (writeSpr 0x001 (s.reg rs) s).xer
      _ = xerSo (s.reg rs &&& xerMask) := congrArg xerSo (writeSpr_xer_xer ..)
      _ = true := (xerSo_and_xerMask _).trans (hxer rfl)
  · by_cases h2 : sprn = 0x3F2
    · subst h2
      exact (writeSpr_dbcr0_xer (hdbcr0 rfl) s).symm ▸ hso
    · rw [writeSpr_xer (fun e => h1 (BitVec.eq_of_toNat_eq e)) (fun e => h2 (BitVec.eq_of_toNat_eq e))]
      exact hso

/-- The instructions that may clear XER[SO] in `s`: mtspr of XER and of DBCR0, and mcrxr. -/
def MayClearSo (i : Instr) (s : State) : Prop :=
  (∃ r nr, i = .mtspr r 0x001 nr ∧ xerSo (s.reg r) = false) ∨ (∃ bf nr, i = .mcrxr bf nr) ∨
    ∃ r nr, i = .mtspr r 0x3F2 nr ∧ s.reg r &&& 0x30000000 ≠ 0

theorem soSticky_exec (i : Instr) (s : State) (h : ¬MayClearSo i s) : SoSticky s (exec i s) := by
  cases i with
  | lbz | lbzx | lha | lhax | lhz | lhzx | lwz | lwzx | lhbrx | lwbrx => exact .of_xerKept (xerKept_loadForm ..)
  | lbzu | lbzux | lhau | lhaux | lhzu | lhzux | lwzu | lwzux => exact .of_xerKept (xerKept_loadUpdateForm ..)
  | stb | stbx | sth | sthx | stw | stwx | sthbrx | stwbrx => exact .of_xerKept (xerKept_storeForm ..)
  | stbu | stbux | sthu | sthux | stwu | stwux => exact .of_xerKept (xerKept_storeUpdateForm ..)
  | lmw => exact .of_xerKept (xerKept_execLmw ..)
  | stmw => exact .of_xerKept (xerKept_execStmw ..)
  | lswi | lswx => exact .of_xerKept (xerKept_stringLoadForm ..)
  | stswi | stswx => exact .of_xerKept (xerKept_stringStoreForm ..)
  | lwarx => exact .of_xerKept (xerKept_execLwarx ..)
  | stwcx => exact .of_xerKept (xerKept_execStwcx ..)
  | add | addc | adde | addi | addic | addicRc | addis | addme | addze | neg | subf | subfc | subfe | subfic | subfme
  | subfze | mulhw | mulhwu | mulli | mullw => exact soSticky_writeResult ..
  | divw | divwu => exact soSticky_divideForm ..
  | macchw | macchws | macchwsu | macchwu | machhw | machhws | machhwsu | machhwu | maclhw | maclhws | maclhwsu | maclhwu
  | nmacchw | nmacchws | nmachhw | nmachhws | nmaclhw | nmaclhws | mulchw | mulchwu | mulhhw | mulhhwu | mullhw
  | mullhwu => exact soSticky_writeResult ..
  | and | andc | andi | andis | cntlzw | eqv | extsb | extsh | nand | nor | or | orc | ori | oris | xor | xori | xoris
  | rlwimi | rlwinm | rlwnm | slw | sraw | srawi | srw => exact soSticky_writeResult ..
  | cmp | cmpi | cmpl | cmpli | crand | crandc | creqv | crnand | crnor | cror | crorc | crxor | mcrf | mtcrf =>
    exact .of_xerKept (xerKept_finish rfl)
  | b | bc | bclr => exact .of_xerKept (xerKept_next rfl)
  | bcctr => exact .of_xerKept (xerKept_execBcctr ..)
  | dcba | dcbt | dcbtst | icbt | eieio | isync | sync | mfcr => exact .of_xerKept (xerKept_finish rfl)
  | dcbf | dcbst | icbi => exact .of_xerKept (xerKept_cacheForm ..)
  | dcbi | dccci => exact .of_xerKept (xerKept_privileged (xerKept_cacheForm ..))
  | dcbz => exact .of_xerKept (xerKept_execDcbz ..)
  | dcread => exact .of_xerKept (xerKept_execDcread ..)
  | icread => exact .of_xerKept (xerKept_execIcread ..)
  | iccci | mfmsr | mtmsr | wrtee | wrteei | tlbia | tlbsync | tlbwe => exact .of_xerKept (xerKept_privileged (xerKept_finish rfl))
  | rfci | rfi => exact .of_xerKept (xerKept_returnForm ..)
  | tlbre => exact .of_xerKept (xerKept_execTlbre ..)
  | tlbsx => exact .of_xerKept (xerKept_execTlbsx ..)
  | mfdcr => exact .of_xerKept (xerKept_privileged (xerKept_readForm _ _ _ (afterDcr_xer ..)))
  | mtdcr => exact .of_xerKept (xerKept_privileged (xerKept_finish (afterDcr_xer ..)))
  | mfspr => exact .of_xerKept (xerKept_execMfspr ..)
  | mftb => exact .of_xerKept (xerKept_readForm _ _ _ rfl)
  | sc => exact .of_xerKept (xerKept_next (takesSome_xer _ (takesSome_systemCallInterrupt s)))
  | tw => exact .of_xerKept (xerKept_execTw ..)
  | twi => exact .of_xerKept (xerKept_execTwi ..)
  | mcrxr bf nr => exact absurd (.inr (.inl ⟨bf, nr, rfl⟩)) h
  | mtspr rs sprn nr =>
    refine soSticky_execMtspr rs sprn nr s (fun e => ?_) (fun e => ?_)
    · subst e
      exact eq_true_of_ne_false fun hso => h (.inl ⟨rs, nr, rfl, hso⟩)
    · subst e
      exact not_not.1 fun hrst => h (.inr (.inr ⟨rs, nr, rfl, hrst⟩))

/-- set_ov leaves the bits after XER[SO] and XER[OV]. -/
theorem bitOf_withOv {xer : Word} {o : Bool} {j : Nat} (h2 : 2 ≤ j) (hj : j < 32) : bitOf (withOv xer o) j = bitOf xer j := by
  unfold withOv
  rw [bitOf_withBit _ _ _ _ (by decide) hj, if_neg (by omega)]
  cases o
  · rfl
  · rw [if_pos rfl, bitOf_withBit _ _ _ _ (by decide) hj, if_neg (by omega)]

/-- Settles O27: set_ov by `xerBecomes`, and every instruction but the three by the operation it ends with. -/
theorem summaryOverflowIsSticky : Obligations.SummaryOverflowIsSticky := by
  unfold Obligations.SummaryOverflowIsSticky
  constructor
  · intro xer o
    obtain ⟨-, hov, hso, -⟩ := xerBecomes { State.reset with xer := xer } { State.reset with xer := withOv xer o } none (some o) rfl
    exact ⟨hov, hso, fun j h2 hj => bitOf_withOv h2 hj⟩
  · intro i s t ht hso
    by_cases h : MayClearSo i s
    · exact .inr h
    · exact .inl ((soSticky_exec i s h).of_eq_next ht hso)

/-! ## CR0 of a record form -/

/-- Writing CR0 leaves the bits of the other fields. -/
theorem crBit_withCrField_zero (cr : Word) (v : BitVec 4) {j : BitVec 5} (hj : 4 ≤ j) :
    crBit (withCrField cr 0 v) j = crBit cr j := by
  have hj4 : 4 ≤ j.toNat := hj
  have hshift : crShift 0 = 28 := rfl
  unfold crBit bitOf
  rw [getLsbD_withCrField _ _ _ _ (by omega), hshift, if_neg (by omega)]

/-- Settles O26: the four bits are those of `cr0Records_withCrField`, the others are outside field 0. -/
theorem recordSetsCr0 : Obligations.RecordSetsCr0 := by
  unfold Obligations.RecordSetsCr0
  intro cr r xer
  obtain ⟨-, hlt, hgt, heq, hso⟩ := cr0Records_withCrField { State.reset with cr := cr }
    { State.reset with cr := crAfter cr true r xer, xer := xer } r rfl
  exact ⟨hlt, hgt, heq, hso, fun j hj => crBit_withCrField_zero cr _ hj⟩

end Sys2Proof.Proofs
end

section
/-! PROOF. The invariant of the machine: it holds after reset, and every step keeps it (10_state.md R32, R34, D21). Each operation
on the state keeps it, the checks of an access and the interrupts keep it, so do the instructions, the timers and a reset. -/
namespace Sys2Proof.Proofs
open Sys2Proof Sys2Proof.Machine Sys2Proof.Laws

/-- Settles O4. -/
theorem resetMeetsTheInvariant : Obligations.ResetMeetsTheInvariant := by
  unfold Obligations.ResetMeetsTheInvariant
  constructor <;> decide

/-! ## Unimplemented bits: those outside a register's mask -/

theorem unimplemented_zero (m : Word) : 0 &&& ~~~m = 0 := BitVec.zero_and

theorem unimplemented_mask (v m : Word) : v &&& m &&& ~~~m = 0 := by
  rw [BitVec.and_assoc, BitVec.and_not_self]
  exact BitVec.and_zero

theorem unimplemented_and {v m : Word} (k : Word) (h : v &&& ~~~m = 0) : v &&& k &&& ~~~m = 0 := by
  rw [BitVec.and_assoc, BitVec.and_comm k, ← BitVec.and_assoc, h]
  exact BitVec.zero_and

theorem unimplemented_or {a b m : Word} (ha : a &&& ~~~m = 0) (hb : b &&& ~~~m = 0) : (a ||| b) &&& ~~~m = 0 := by
  rw [BitVec.and_or_distrib_right, ha, hb]
  exact BitVec.or_zero

/-- A register written through a narrower mask. -/
theorem unimplemented_narrow (v : Word) {k m : Word} (h : k &&& ~~~m = 0) : v &&& k &&& ~~~m = 0 := by
  rw [BitVec.and_assoc, h]
  exact BitVec.and_zero

theorem unimplemented_withBit {x m : Word} {i : Nat} (b : Bool) (hx : x &&& ~~~m = 0) (hi : bitMask i &&& ~~~m = 0) :
    withBit x i b &&& ~~~m = 0 := by
  cases b
  · exact unimplemented_and _ hx
  · exact unimplemented_or hx hi

theorem unimplemented_xerAfter {x : Word} (ca ov : Option Bool) (h : x &&& ~~~xerMask = 0) :
    xerAfter x ca ov &&& ~~~xerMask = 0 := by
  have hca (c : Bool) : withCa x c &&& ~~~xerMask = 0 := unimplemented_withBit c h (by decide)
  have hov {y : Word} (o : Bool) (hy : y &&& ~~~xerMask = 0) : withOv y o &&& ~~~xerMask = 0 := by
    refine unimplemented_withBit o ?_ (by decide)
    split
    · exact unimplemented_withBit true hy (by decide)
    · exact hy
  cases ca with
  | none =>
    cases ov with
    | none => exact h
    | some o => exact hov o h
  | some c =>
    cases ov with
    | none => exact hca c
    | some o => exact hov o (hca c)

/-! ## Word alignment -/

theorem misaligned_eq_false_iff (a : Word) : misaligned a = false ↔ a.extractLsb' 0 2 = 0 := by
  simp [misaligned]

theorem misaligned_add {a b : Word} (ha : misaligned a = false) (hb : misaligned b = false) : misaligned (a + b) = false := by
  rw [misaligned_iff] at *
  rw [BitVec.toNat_add]
  omega

theorem misaligned_or {a b : Word} (ha : misaligned a = false) (hb : misaligned b = false) : misaligned (a ||| b) = false := by
  rw [misaligned_eq_false_iff] at *
  rw [BitVec.extractLsb'_or, ha, hb]
  rfl

theorem misaligned_and (a : Word) {b : Word} (hb : misaligned b = false) : misaligned (a &&& b) = false := by
  rw [misaligned_eq_false_iff] at *
  rw [BitVec.extractLsb'_and, hb]
  exact BitVec.and_zero

theorem misaligned_wordAligned (a : Word) : misaligned (wordAligned a) = false := misaligned_and a (by decide)

theorem misaligned_vector (s : State) (k : Interrupt) : misaligned (s.vector k) = false :=
  misaligned_or (misaligned_and _ (by decide)) (by cases k <;> decide)

/-- A field followed by two 0 bits, sign-extended, is a multiple of 4. -/
theorem misaligned_signExtend_append {n : Nat} (x : BitVec n) : misaligned ((x ++ 0#2).signExtend 32) = false := by
  rw [misaligned_eq_false_iff]
  apply BitVec.eq_of_getLsbD_eq
  intro i hi
  rw [BitVec.getLsbD_extractLsb', BitVec.getLsbD_signExtend, BitVec.getLsbD_append]
  simp [hi, show i < n + 2 by omega]

/-- The target of a branch, absolute or relative. -/
theorem misaligned_target {s : State} (h : s.Inv) (aa : Bool) {d : Word} (hd : misaligned d = false) :
    misaligned ((if aa then 0 else s.pc) + d) = false := by
  refine misaligned_add ?_ hd
  cases aa
  · exact h.aligned
  · rfl

/-! ## The operations on the state -/

section
variable {s : State}

theorem inv_advance (h : s.Inv) : s.advance.Inv := { h with aligned := misaligned_add h.aligned rfl }

theorem inv_setReg (r : Reg) (v : Word) (h : s.Inv) : (s.setReg r v).Inv := { h with }

theorem inv_drawn (n : Nat) (h : s.Inv) : (s.drawn n).Inv := { h with }

theorem inv_markCr0 (nr : Bool) (h : s.Inv) : (s.markCr0 nr).Inv := by
  cases nr
  · exact h
  · exact { h with }

theorem inv_finish (nr : Bool) (h : s.Inv) : (s.finish nr).Inv := inv_advance (inv_markCr0 nr h)

theorem inv_freeRegs (rs : List Reg) (h : s.Inv) : (s.freeRegs rs).Inv := by
  rw [freeRegs_eq]
  exact { h with }

theorem inv_writeResult (rt : Reg) (r : Word) (ca ov : Option Bool) (rc : Bool) (h : s.Inv) :
    (s.writeResult rt r ca ov rc).Inv :=
  { h with aligned := misaligned_add h.aligned rfl, xer := unimplemented_xerAfter ca ov h.xer }

theorem inv_afterLoads (parts : List (Word × Nat)) (h : s.Inv) : (s.afterLoads parts).Inv := { h with }

theorem inv_afterStores (parts : List (Word × List Byte)) (h : s.Inv) : (s.afterStores parts).Inv :=
  { h with storage := wf_storeBytes h.storage _ }

theorem inv_afterDcr (n : BitVec 10) (a : HostAccess) (h : s.Inv) : (s.afterDcr n a).Inv := by
  unfold State.afterDcr
  split
  · exact { h with }
  · exact h

theorem inv_afterFetch (h : s.Inv) : s.afterFetch.Inv := by
  unfold State.afterFetch
  split
  · split
    · exact { h with }
    · exact h
  · exact h

/-! ## Interrupts -/

theorem inv_takeInterrupt (k : Interrupt) (saved : Word) (h : s.Inv) : (takeInterrupt k saved s).Inv := by
  unfold takeInterrupt
  split
  · exact { h with
      srr2 := unimplemented_mask saved srrMask, msr := unimplemented_and _ h.msr, aligned := misaligned_vector s k }
  · exact { h with
      srr0 := unimplemented_mask saved srrMask, msr := unimplemented_and _ h.msr, aligned := misaligned_vector s k }

theorem inv_returnFromInterrupt (address status : Word) (h : s.Inv) : (returnFromInterrupt address status s).Inv :=
  { h with msr := unimplemented_mask status msrMask, aligned := misaligned_wordAligned address }

/-- The ESR a synchronous interrupt writes, for bits that ESR has. -/
theorem unimplemented_syndrome (esr : Word) {bits : Word} (h : bits &&& ~~~esrMask = 0) :
    syndrome esr bits &&& ~~~esrMask = 0 := unimplemented_or (unimplemented_narrow esr (by decide)) h

/-- An interrupt taken after the syndrome registers have been written. -/
theorem inv_takeInterrupt_syndrome (k : Interrupt) (saved dear : Word) {esr : Word} (h : s.Inv) (hesr : esr &&& ~~~esrMask = 0) :
    (takeInterrupt k saved { s with esr := esr, dear := dear }).Inv :=
  inv_takeInterrupt k saved { h with esr := hesr }

theorem inv_programInterrupt (c : ProgramCause) (h : s.Inv) : (programInterrupt c s).Inv :=
  inv_takeInterrupt_syndrome _ _ s.dear h (unimplemented_syndrome _ (by cases c <;> decide))

theorem inv_dataTlbMissInterrupt (ea : Word) (store : Bool) (h : s.Inv) : (dataTlbMissInterrupt ea store s).Inv :=
  inv_takeInterrupt_syndrome _ _ ea h (unimplemented_syndrome _ (unimplemented_withBit _ (by decide) (by decide)))

theorem inv_dataStorageInterrupt (ea : Word) (store zone u0 : Bool) (h : s.Inv) :
    (dataStorageInterrupt ea store zone u0 s).Inv :=
  inv_takeInterrupt_syndrome _ _ ea h (unimplemented_syndrome _ (by cases store <;> cases zone <;> cases u0 <;> decide))

theorem inv_alignmentInterrupt (ea : Word) (h : s.Inv) : (alignmentInterrupt ea s).Inv :=
  inv_takeInterrupt_syndrome _ _ ea h h.esr

theorem inv_instructionMachineCheck (h : s.Inv) : (instructionMachineCheck s).Inv :=
  inv_takeInterrupt_syndrome _ _ s.dear h (unimplemented_or h.esr (by decide))

theorem inv_instructionStorageInterrupt (zone : Bool) (h : s.Inv) : (instructionStorageInterrupt zone s).Inv :=
  inv_takeInterrupt_syndrome _ _ s.dear h (unimplemented_syndrome _ (unimplemented_withBit _ (by decide) (by decide)))

/-! ## Debug events -/

theorem inv_recordDebugEvents (bits : Word) (h : s.Inv) : (recordDebugEvents bits s).Inv := by
  unfold recordDebugEvents
  split
  · exact h
  · have hevents : bits &&& debugEventMask &&& ~~~dbsrMask = 0 := unimplemented_narrow bits (by decide)
    have hide : (if s.deBit then 0 else bitMask 11) &&& ~~~dbsrMask = 0 := by split <;> decide
    exact { h with dbsr := unimplemented_or (unimplemented_or h.dbsr hevents) hide }

theorem inv_recordException (h : s.Inv) : (recordException s).Inv := by
  unfold recordException
  split
  · exact h
  · split
    · exact inv_recordDebugEvents _ h
    · exact h

theorem inv_afterInstruction (dac : Word) (h : s.Inv) : (afterInstruction dac s).Inv := by
  unfold afterInstruction
  dsimp only
  split
  · exact inv_recordException (inv_recordDebugEvents _ h)
  · exact inv_recordException h

theorem inv_recordUnconditional (active : Bool) (h : s.Inv) : (recordUnconditional active s).Inv := by
  unfold recordUnconditional
  split
  · exact inv_recordDebugEvents _ h
  · exact h

theorem inv_underCompares (i : Instr) (s : State) {t : State} (h : t.Inv) : (underCompares i s t).Inv := by
  have hwf := wf_underCompares i s h.storage
  rw [underCompares_frame]
  exact { h with storage := hwf }

/-! ## A reset and the timers -/

theorem inv_resetMachine (type : ResetType) (watchdog : Option (BitVec 2)) (h : s.Inv) : (resetMachine type watchdog s).Inv := by
  unfold resetMachine
  constructor
  case storage => exact h.storage
  case aligned | resetVector => exact h.resetVector
  case xer | srr0 | srr2 | evpr | pid | iac1 | iac2 | iac3 | iac4 => exact unimplemented_mask ..
  case msr | esr | tcr | dbcr0 | dbcr1 => exact unimplemented_zero _
  case ccr0 => exact (by decide : (0x00700000 : Word) &&& ~~~ccr0Mask = 0)
  case tsr =>
    refine unimplemented_or ?_ (unimplemented_narrow _ (by decide))
    cases watchdog with
    | none => exact unimplemented_narrow _ (by decide)
    | some c => exact (by decide : ∀ c : BitVec 2, (c.setWidth 32 <<< 28) &&& ~~~tsrMask = 0) c
  case dbsr => exact unimplemented_or (unimplemented_narrow _ (by decide)) (by cases type <;> decide)

/-- A timer event sets a bit of TSR. -/
theorem inv_setTsr {i : Nat} (hi : bitMask i &&& ~~~tsrMask = 0) (h : s.Inv) :
    State.Inv { s with tsr := s.tsr ||| bitMask i } := { h with tsr := unimplemented_or h.tsr hi }

theorem inv_tickFit (old : Word) (h : s.Inv) : (tickFit old s).Inv := by
  unfold tickFit
  split
  · exact inv_setTsr (by decide) h
  · exact h

theorem inv_tickPit (h : s.Inv) : (tickPit s).Inv := by
  unfold tickPit
  split
  · exact h
  · split
    · exact { inv_setTsr (i := 4) (by decide) h with }
    · exact { h with }

theorem inv_tick (h : s.Inv) : (tick s).Inv := by
  have hfit : (tickFit s.tbl (tickTimeBase s)).Inv := inv_tickFit _ { h with }
  unfold tick
  split
  · exact h
  · dsimp only
    split
    · split
      · exact inv_tickPit (inv_setTsr (by decide) hfit)
      · exact inv_tickPit (inv_setTsr (by decide) hfit)
      · exact inv_resetMachine _ _ hfit
      · exact inv_tickPit hfit
    · exact inv_tickPit hfit

theorem inv_ticks (n : Nat) (h : s.Inv) : (ticks n s).Inv := by
  induction n generalizing s with
  | zero => exact h
  | succ n ih => exact ih (inv_tick h)

end

/-! ## Outcomes all of whose next states meet the invariant -/

/-- Every next state of an outcome meets the invariant. -/
def KeepsInv (r : Result) : Prop := NextHas State.Inv r

/-- So does every next state of what stops an access, if something does. -/
def StopKeepsInv (stop : Option Result) : Prop := ∀ r, stop = some r → KeepsInv r

theorem keepsInv_next {t : State} (h : t.Inv) : KeepsInv (.next t) := .next h

theorem stopKeepsInv_none : StopKeepsInv none := nofun

theorem stopKeepsInv_some {r : Result} (h : KeepsInv r) : StopKeepsInv (some r) := by
  rintro _ ⟨⟩
  exact h

theorem keepsInv_unlessStopped {stop : Option Result} {effect : Result} (hstop : StopKeepsInv stop) (h : KeepsInv effect) :
    KeepsInv (unlessStopped stop effect) := by
  cases stop with
  | none => exact h
  | some r => exact hstop r rfl

section
variable {s : State}

/-- The end of an instruction without a record bit. -/
theorem keepsInv_finish (nr : Bool) (h : s.Inv) : KeepsInv (.next (s.finish nr)) := keepsInv_next (inv_finish nr h)

theorem keepsInv_privileged {effect : Result} (h : s.Inv) (heffect : KeepsInv effect) : KeepsInv (privileged s effect) := by
  unfold privileged
  split
  · exact keepsInv_next (inv_programInterrupt _ h)
  · exact heffect

theorem keepsInv_privilegedIf (p : Bool) {effect : Result} (h : s.Inv) (heffect : KeepsInv effect) :
    KeepsInv (privilegedIf p s effect) := by
  cases p
  · exact heffect
  · exact keepsInv_privileged h heffect

theorem keepsInv_trap (h : s.Inv) : KeepsInv (trap s) := by
  unfold trap
  split
  · exact .refused _
  · split
    · dsimp only
      split
      · exact keepsInv_next (inv_takeInterrupt _ _ (inv_recordDebugEvents _ h))
      · exact keepsInv_next (inv_programInterrupt _ (inv_recordDebugEvents _ h))
    · exact keepsInv_next (inv_programInterrupt _ h)

/-! ## The checks of an access -/

theorem stopKeepsInv_translationStopAt (store : Bool) (dear ea : Word) (h : s.Inv) :
    StopKeepsInv (translationStopAt s store dear ea) := by
  unfold translationStopAt
  split
  · exact stopKeepsInv_none
  · exact stopKeepsInv_some (keepsInv_next (inv_dataTlbMissInterrupt _ _ h))
  · exact stopKeepsInv_some (keepsInv_next (inv_dataStorageInterrupt _ _ _ _ h))
  · exact stopKeepsInv_some (.refused _)

theorem stopKeepsInv_translationStop (store : Bool) (eas : List Word) (h : s.Inv) :
    StopKeepsInv (translationStop s store eas) := by
  induction eas with
  | nil => exact stopKeepsInv_none
  | cons ea eas ih =>
    unfold translationStop
    split
    · rename_i r hr
      exact stopKeepsInv_some (stopKeepsInv_translationStopAt store ea ea h r hr)
    · exact ih

theorem stopKeepsInv_busStop (store : Bool) (parts : List (Word × Nat)) (h : s.Inv) : StopKeepsInv (busStop s store parts) := by
  unfold busStop
  split
  · exact stopKeepsInv_some (keepsInv_next (inv_takeInterrupt _ _ h))
  · exact stopKeepsInv_none

theorem stopKeepsInv_dataStop (store : Bool) (eas : List Word) (parts : List (Word × Nat)) (h : s.Inv) :
    StopKeepsInv (dataStop s store eas parts) := by
  unfold dataStop
  split
  · rename_i r hr
    exact stopKeepsInv_some (stopKeepsInv_translationStop store eas h r hr)
  · exact stopKeepsInv_busStop store parts h

theorem stopKeepsInv_alignmentStop (store : Bool) (ea : Word) (eas : List Word) (h : s.Inv) :
    StopKeepsInv (alignmentStop s store ea eas) := by
  unfold alignmentStop
  split
  · rename_i r hr
    exact stopKeepsInv_some (stopKeepsInv_translationStop store eas h r hr)
  · split
    · exact stopKeepsInv_some (keepsInv_next (inv_alignmentInterrupt ea h))
    · exact stopKeepsInv_none

/-! ## Storage instructions -/

theorem keepsInv_loadForm (rt : Reg) (ea : Word) (n : Nat) (extend : Word → Word) (nr : Bool) (h : s.Inv) :
    KeepsInv (loadForm rt ea n extend nr s) :=
  keepsInv_unlessStopped (stopKeepsInv_dataStop _ _ _ h)
    (keepsInv_finish _ (inv_setReg _ _ (inv_drawn _ (inv_afterLoads _ h))))

theorem keepsInv_loadUpdateForm (rt ra : Reg) (ea : Word) (n : Nat) (extend : Word → Word) (nr : Bool) (h : s.Inv) :
    KeepsInv (loadUpdateForm rt ra ea n extend nr s) := by
  refine keepsInv_unlessStopped (stopKeepsInv_dataStop _ _ _ h) (keepsInv_finish _ ?_)
  have hloaded := inv_setReg rt (extend (s.memRead s.hostLog 0 ea n))
    (inv_drawn (s.loadDraws n (operandParts ea n)) (inv_afterLoads (operandParts ea n) h))
  split
  · exact inv_drawn _ (inv_setReg _ _ hloaded)
  · exact inv_setReg _ _ hloaded

theorem keepsInv_storeForm (ea : Word) (n : Nat) (v : Word) (nr : Bool) (h : s.Inv) : KeepsInv (storeForm ea n v nr s) :=
  keepsInv_unlessStopped (stopKeepsInv_dataStop _ _ _ h) (keepsInv_finish _ (inv_afterStores _ h))

theorem keepsInv_storeUpdateForm (ra : Reg) (ea : Word) (n : Nat) (v : Word) (nr : Bool) (h : s.Inv) :
    KeepsInv (storeUpdateForm ra ea n v nr s) := by
  refine keepsInv_unlessStopped (stopKeepsInv_dataStop _ _ _ h) (keepsInv_finish _ ?_)
  have hstored : (s.memWrite ea n v).Inv := inv_afterStores _ h
  split
  · exact inv_drawn _ (inv_setReg _ _ hstored)
  · exact inv_setReg _ _ hstored

theorem keepsInv_execLmw (rt ra : Reg) (d : BitVec 16) (h : s.Inv) : KeepsInv (execLmw rt ra d s) :=
  keepsInv_unlessStopped (stopKeepsInv_dataStop _ _ _ h) (keepsInv_next (inv_advance (inv_freeRegs _ { h with })))

theorem keepsInv_execStmw (rs ra : Reg) (d : BitVec 16) (h : s.Inv) : KeepsInv (execStmw rs ra d s) :=
  keepsInv_unlessStopped (stopKeepsInv_dataStop _ _ _ h) (keepsInv_next (inv_advance (inv_afterStores _ h)))

theorem keepsInv_stringLoadForm (rt : Reg) (bases : List Reg) (ea : Word) (count : Nat) (nr : Bool) (h : s.Inv) :
    KeepsInv (stringLoadForm rt bases ea count nr s) :=
  keepsInv_unlessStopped (stopKeepsInv_dataStop _ _ _ h) (keepsInv_finish _ (inv_freeRegs _ { h with }))

theorem keepsInv_stringStoreForm (rs : Reg) (ea : Word) (count : Nat) (nr : Bool) (h : s.Inv) :
    KeepsInv (stringStoreForm rs ea count nr s) :=
  keepsInv_unlessStopped (stopKeepsInv_dataStop _ _ _ h) (keepsInv_finish _ (inv_afterStores _ h))

theorem keepsInv_execLwarx (rt ra rb : Reg) (nr : Bool) (h : s.Inv) : KeepsInv (execLwarx rt ra rb nr s) :=
  keepsInv_unlessStopped (stopKeepsInv_alignmentStop _ _ _ h)
    (keepsInv_unlessStopped (stopKeepsInv_busStop _ _ h) (keepsInv_finish _ (inv_setReg _ _ { h with })))

theorem keepsInv_execStwcx (rs ra rb : Reg) (h : s.Inv) : KeepsInv (execStwcx rs ra rb s) := by
  refine keepsInv_unlessStopped (stopKeepsInv_alignmentStop _ _ _ h) ?_
  have hpc : misaligned (s.pc + 4) = false := misaligned_add h.aligned rfl
  split
  · have hstored : (s.memWrite (s.eaX ra rb) 4 (s.reg rs)).Inv := inv_afterStores _ h
    exact keepsInv_unlessStopped (stopKeepsInv_busStop _ _ h) (keepsInv_next { hstored with aligned := hpc })
  · exact keepsInv_next { h with aligned := hpc }

/-! ## Cache instructions -/

theorem keepsInv_cacheForm (store : Bool) (ea : Word) (nr : Bool) (h : s.Inv) : KeepsInv (cacheForm store ea nr s) :=
  keepsInv_unlessStopped (stopKeepsInv_translationStopAt _ _ _ h) (keepsInv_finish _ h)

theorem keepsInv_execDcbz (ra rb : Reg) (nr : Bool) (h : s.Inv) : KeepsInv (execDcbz ra rb nr s) := by
  refine keepsInv_unlessStopped (stopKeepsInv_translationStopAt _ _ _ h) ?_
  split
  · exact keepsInv_next (inv_alignmentInterrupt _ h)
  · exact keepsInv_unlessStopped (stopKeepsInv_busStop _ _ h) (keepsInv_finish _ (inv_afterStores _ h))

theorem keepsInv_execDcread (rt ra rb : Reg) (nr : Bool) (h : s.Inv) : KeepsInv (execDcread rt ra rb nr s) :=
  keepsInv_privileged h (keepsInv_unlessStopped (stopKeepsInv_alignmentStop _ _ _ h)
    (keepsInv_finish _ (inv_drawn _ (inv_setReg _ _ h))))

theorem keepsInv_execIcread (ra rb : Reg) (nr : Bool) (h : s.Inv) : KeepsInv (execIcread ra rb nr s) :=
  keepsInv_privileged h (keepsInv_unlessStopped (stopKeepsInv_translationStopAt _ _ _ h) (keepsInv_finish _ { h with }))

/-! ## Arithmetic, branch, CR and TLB instructions -/

/-- The arithmetic, logical, rotate and shift instructions end by writing a result. -/
theorem keepsInv_writeResult (rt : Reg) (r : Word) (ca ov : Option Bool) (rc : Bool) (h : s.Inv) :
    KeepsInv (.next (s.writeResult rt r ca ov rc)) := keepsInv_next (inv_writeResult rt r ca ov rc h)

theorem keepsInv_divideForm (rt : Reg) (quotient : Option Word) (oe rc : Bool) (h : s.Inv) :
    KeepsInv (divideForm rt quotient oe rc s) := by
  cases quotient with
  | none =>
    exact keepsInv_next
      { h with aligned := misaligned_add h.aligned rfl, xer := unimplemented_xerAfter none (overflowIf oe true) h.xer }
  | some q => exact keepsInv_writeResult _ _ _ _ _ h

theorem keepsInv_branchForm (bo bi : BitVec 5) {target : Word → Word} (lk : Bool) (h : s.Inv)
    (htarget : ∀ ctr, misaligned (target ctr) = false) : KeepsInv (branchForm bo bi target lk s) := by
  refine keepsInv_next { h with aligned := ?_ }
  dsimp only
  split
  · exact htarget _
  · exact misaligned_add h.aligned rfl

theorem keepsInv_execB (li : BitVec 24) (aa lk : Bool) (h : s.Inv) : KeepsInv (execB li aa lk s) :=
  keepsInv_next { h with aligned := misaligned_target h aa (misaligned_signExtend_append li) }

theorem keepsInv_execBc (bo bi : BitVec 5) (bd : BitVec 14) (aa lk : Bool) (h : s.Inv) : KeepsInv (execBc bo bi bd aa lk s) :=
  keepsInv_branchForm bo bi lk h fun _ => misaligned_target h aa (misaligned_signExtend_append bd)

theorem keepsInv_execBcctr (bo bi : BitVec 5) (lk : Bool) (h : s.Inv) : KeepsInv (execBcctr bo bi lk s) := by
  unfold execBcctr
  split
  · exact keepsInv_branchForm bo bi lk h misaligned_wordAligned
  · refine keepsInv_next { h with aligned := ?_ }
    dsimp only
    split
    · exact misaligned_wordAligned _
    · exact misaligned_add h.aligned rfl

theorem keepsInv_execBclr (bo bi : BitVec 5) (lk : Bool) (h : s.Inv) : KeepsInv (execBclr bo bi lk s) :=
  keepsInv_branchForm bo bi lk h fun _ => misaligned_wordAligned _

/-- The instructions that write CR and end without a record bit. -/
theorem keepsInv_writeCr (cr : Word) (nr : Bool) (h : s.Inv) : KeepsInv (.next (State.finish { s with cr := cr } nr)) :=
  keepsInv_finish nr { h with }

theorem keepsInv_execMcrxr (bf : BitVec 3) (nr : Bool) (h : s.Inv) : KeepsInv (execMcrxr bf nr s) :=
  keepsInv_finish nr { h with xer := unimplemented_and _ h.xer }

/-- A privileged instruction that writes the MSR. -/
theorem keepsInv_writeMsr {msr : Word} (nr : Bool) (h : s.Inv) (hmsr : msr &&& ~~~msrMask = 0) :
    KeepsInv (privileged s (.next (State.finish { s with msr := msr } nr))) :=
  keepsInv_privileged h (keepsInv_finish nr { h with msr := hmsr })

/-- A privileged instruction that writes the TLB. -/
theorem keepsInv_writeTlb (tlb : Vector TlbEntry 64) (nr : Bool) (h : s.Inv) :
    KeepsInv (privileged s (.next (State.finish { s with tlb := tlb } nr))) :=
  keepsInv_privileged h (keepsInv_finish nr { h with })

theorem keepsInv_returnForm (address status : Word) (nr : Bool) (h : s.Inv) : KeepsInv (returnForm address status nr s) :=
  keepsInv_privileged h (keepsInv_next (inv_markCr0 nr (inv_returnFromInterrupt address status h)))

/-- An eight-bit TID in PID. -/
theorem unimplemented_tid (tid : BitVec 8) : tid.setWidth 32 &&& ~~~pidMask = 0 := by
  revert tid
  decide

theorem keepsInv_execTlbre (rt ra : Reg) (ws : BitVec 5) (nr : Bool) (h : s.Inv) : KeepsInv (execTlbre rt ra ws nr s) := by
  refine keepsInv_privileged h (keepsInv_finish nr (inv_freeRegs _ ?_))
  split
  · exact inv_setReg _ _ h
  · exact inv_setReg _ _ { h with pid := unimplemented_tid _ }

theorem keepsInv_execTlbsx (rt ra rb : Reg) (rc : Bool) (h : s.Inv) : KeepsInv (execTlbsx rt ra rb rc s) := by
  refine keepsInv_privileged h ?_
  split
  · exact keepsInv_next (inv_advance (inv_setReg _ _ { h with }))
  · exact keepsInv_next (inv_advance (inv_drawn _ (inv_setReg _ _ { h with })))
  · exact .refused _

/-! ## Processor management -/

theorem keepsInv_readForm (rt : Reg) (v : Option Word) (nr : Bool) (h : s.Inv) : KeepsInv (readForm rt v nr s) := by
  cases v with
  | none => exact keepsInv_finish nr (inv_drawn _ (inv_setReg _ _ h))
  | some v => exact keepsInv_finish nr (inv_setReg _ _ h)

theorem keepsInv_execTw (tcond : BitVec 5) (ra rb : Reg) (nr : Bool) (h : s.Inv) : KeepsInv (execTw tcond ra rb nr s) := by
  unfold execTw
  split
  · exact keepsInv_trap h
  · exact keepsInv_finish nr h

theorem keepsInv_execTwi (tcond : BitVec 5) (ra : Reg) (im : BitVec 16) (h : s.Inv) : KeepsInv (execTwi tcond ra im s) := by
  unfold execTwi
  split
  · exact keepsInv_trap h
  · exact keepsInv_next (inv_advance h)

theorem inv_writeDbcr0 (v : Word) (h : s.Inv) : (writeDbcr0 v s).Inv := by
  unfold writeDbcr0
  split
  · exact inv_resetMachine _ _ h
  · exact inv_advance { h with dbcr0 := unimplemented_mask .. }

end

/-- Each row of the table masks the register it writes, clears or keeps bits that were implemented, or writes a register all of
whose bits are implemented. -/
theorem sprWriter_inv : ∀ p ∈ sprWriters, ∀ (v : Word) (s : State), s.Inv → (p.2 v s).Inv := by
  simp only [sprWriters, List.forall_mem_cons]
  refine ⟨fun _ _ h => inv_advance { h with xer := unimplemented_mask .. }, ?_, ?_,
    fun _ _ h => inv_advance { h with srr0 := unimplemented_mask .. }, ?_, ?_, ?_, ?_, ?_, ?_, ?_, ?_, ?_, ?_, ?_, ?_, ?_,
    ?_, fun _ _ h => inv_advance { h with pid := unimplemented_mask .. },
    fun _ _ h => inv_advance { h with ccr0 := unimplemented_mask .. },
    fun _ _ h => inv_advance { h with iac3 := unimplemented_mask .. },
    fun _ _ h => inv_advance { h with iac4 := unimplemented_mask .. }, ?_, ?_, ?_, ?_, ?_, ?_,
    fun _ _ h => inv_advance { h with dbcr1 := unimplemented_mask .. }, ?_,
    fun _ _ h => inv_advance { h with esr := unimplemented_mask .. }, ?_,
    fun _ _ h => inv_advance { h with evpr := unimplemented_mask .. },
    fun _ _ h => inv_advance { h with tsr := unimplemented_and _ h.tsr },
    fun _ _ h => inv_advance { h with tcr := unimplemented_or (unimplemented_mask ..) (unimplemented_and _ h.tcr) }, ?_,
    fun _ _ h => inv_advance { h with srr2 := unimplemented_mask .. }, ?_,
    fun _ _ h => inv_advance { h with dbsr := unimplemented_and _ h.dbsr }, fun v _ h => inv_writeDbcr0 v h,
    fun _ _ h => inv_advance { h with iac1 := unimplemented_mask .. },
    fun _ _ h => inv_advance { h with iac2 := unimplemented_mask .. }, ?_, ?_, ?_, ?_, nofun⟩
  all_goals exact fun _ _ h => inv_advance { h with }

theorem inv_writeSpr {s : State} (n : Nat) (v : Word) (h : s.Inv) : (writeSpr n v s).Inv := by
  unfold writeSpr
  split
  · rename_i f hf
    obtain ⟨l₁, l₂, hl, -⟩ := List.lookup_eq_some_iff.1 hf
    exact sprWriter_inv (n, f) (by simp [hl]) v s h
  · exact inv_advance h

theorem keepsInv_execMtspr {s : State} (rs : Reg) (sprn : BitVec 10) (nr : Bool) (h : s.Inv) :
    KeepsInv (execMtspr rs sprn nr s) :=
  keepsInv_privilegedIf _ h (keepsInv_next (inv_markCr0 nr (inv_writeSpr _ _ h)))

/-! ## Every instruction -/

theorem keepsInv_exec (i : Instr) {s : State} (h : s.Inv) : KeepsInv (exec i s) := by
  cases i with
  | lbz | lbzx | lha | lhax | lhz | lhzx | lwz | lwzx | lhbrx | lwbrx => exact keepsInv_loadForm _ _ _ _ _ h
  | lbzu | lbzux | lhau | lhaux | lhzu | lhzux | lwzu | lwzux => exact keepsInv_loadUpdateForm _ _ _ _ _ _ h
  | stb | stbx | sth | sthx | stw | stwx | sthbrx | stwbrx => exact keepsInv_storeForm _ _ _ _ h
  | stbu | stbux | sthu | sthux | stwu | stwux => exact keepsInv_storeUpdateForm _ _ _ _ _ h
  | lmw => exact keepsInv_execLmw _ _ _ h
  | stmw => exact keepsInv_execStmw _ _ _ h
  | lswi | lswx => exact keepsInv_stringLoadForm _ _ _ _ _ h
  | stswi | stswx => exact keepsInv_stringStoreForm _ _ _ _ h
  | lwarx => exact keepsInv_execLwarx _ _ _ _ h
  | stwcx => exact keepsInv_execStwcx _ _ _ h
  | add | addc | adde | addi | addic | addicRc | addis | addme | addze | neg | subf | subfc | subfe | subfic | subfme
  | subfze | mulhw | mulhwu | mulli | mullw => exact keepsInv_writeResult _ _ _ _ _ h
  | divw | divwu => exact keepsInv_divideForm _ _ _ _ h
  | macchw | macchws | macchwsu | macchwu | machhw | machhws | machhwsu | machhwu | maclhw | maclhws | maclhwsu | maclhwu
  | nmacchw | nmacchws | nmachhw | nmachhws | nmaclhw | nmaclhws | mulchw | mulchwu | mulhhw | mulhhwu | mullhw
  | mullhwu => exact keepsInv_writeResult _ _ _ _ _ h
  | and | andc | andi | andis | cntlzw | eqv | extsb | extsh | nand | nor | or | orc | ori | oris | xor | xori | xoris
  | rlwimi | rlwinm | rlwnm | slw | sraw | srawi | srw => exact keepsInv_writeResult _ _ _ _ _ h
  | cmp | cmpi | cmpl | cmpli | crand | crandc | creqv | crnand | crnor | cror | crorc | crxor | mcrf | mtcrf =>
    exact keepsInv_writeCr _ _ h
  | b => exact keepsInv_execB _ _ _ h
  | bc => exact keepsInv_execBc _ _ _ _ _ h
  | bclr => exact keepsInv_execBclr _ _ _ h
  | bcctr => exact keepsInv_execBcctr _ _ _ h
  | dcba | dcbt | dcbtst | icbt | eieio | isync | sync => exact keepsInv_finish _ h
  | mfcr => exact keepsInv_finish _ (inv_setReg _ _ h)
  | dcbf | dcbst | icbi => exact keepsInv_cacheForm _ _ _ h
  | dcbi | dccci => exact keepsInv_privileged h (keepsInv_cacheForm _ _ _ h)
  | dcbz => exact keepsInv_execDcbz _ _ _ h
  | dcread => exact keepsInv_execDcread _ _ _ _ h
  | icread => exact keepsInv_execIcread _ _ _ h
  | iccci | tlbsync => exact keepsInv_privileged h (keepsInv_finish _ h)
  | mfmsr => exact keepsInv_privileged h (keepsInv_finish _ (inv_setReg _ _ h))
  | mtmsr => exact keepsInv_writeMsr _ h (unimplemented_mask ..)
  | wrtee | wrteei => exact keepsInv_writeMsr _ h (unimplemented_withBit _ h.msr (by decide))
  | tlbia | tlbwe => exact keepsInv_writeTlb _ _ h
  | rfci | rfi => exact keepsInv_returnForm _ _ _ h
  | tlbre => exact keepsInv_execTlbre _ _ _ _ h
  | tlbsx => exact keepsInv_execTlbsx _ _ _ _ h
  | mcrxr => exact keepsInv_execMcrxr _ _ h
  | mfdcr => exact keepsInv_privileged h (keepsInv_readForm _ _ _ (inv_afterDcr _ _ h))
  | mtdcr => exact keepsInv_privileged h (keepsInv_finish _ (inv_afterDcr _ _ h))
  | mfspr => exact keepsInv_privilegedIf _ h (keepsInv_readForm _ _ _ h)
  | mftb => exact keepsInv_readForm _ _ _ h
  | mtspr => exact keepsInv_execMtspr _ _ _ h
  | sc => exact keepsInv_next (inv_takeInterrupt _ _ h)
  | tw => exact keepsInv_execTw _ _ _ _ h
  | twi => exact keepsInv_execTwi _ _ _ h

/-! ## The step -/

section
variable {s : State}

theorem keepsInv_beforeInstruction (events : Word) {go : State → Result} (h : s.Inv)
    (hgo : ∀ u : State, u.Inv → KeepsInv (go u)) : KeepsInv (beforeInstruction events s go) := by
  unfold beforeInstruction
  split
  · exact hgo s h
  · split
    · exact keepsInv_next (inv_takeInterrupt _ _ (inv_recordDebugEvents _ h))
    · exact hgo _ (inv_recordDebugEvents _ h)

theorem keepsInv_executeInstr (i : Instr) (h : s.Inv) : KeepsInv (executeInstr i s) := by
  refine keepsInv_beforeInstruction _ h fun u hu => ?_
  have hexec := keepsInv_exec i hu
  split
  · rename_i t ht
    exact keepsInv_next (inv_afterInstruction _ (inv_underCompares i u (hexec.of_eq_next ht)))
  · exact .fault _
  · exact .refused _

theorem keepsInv_tookInterrupt {r : Result} (h : KeepsInv r) : KeepsInv (tookInterrupt r) := by
  cases h with
  | next ht => exact keepsInv_next (inv_recordException ht)
  | fault e => exact .fault e
  | refused e => exact .refused e

theorem keepsInv_rejected (e : DecodeError) (h : s.Inv) : KeepsInv (rejected e s) := by
  cases e with
  | truncated | illegalPrimary | illegalExtended => exact keepsInv_next (inv_programInterrupt _ h)
  | floatingPoint | auxiliary =>
    unfold rejected
    dsimp only
    split
    · exact keepsInv_next (inv_programInterrupt _ h)
    · split
      · exact .refused _
      · exact keepsInv_next (inv_takeInterrupt _ _ h)

/-- What stops a fetch is an interrupt or a refusal. -/
theorem keepsInv_fetchPlace (h : s.Inv) {r : Result} (hr : s.fetchPlace = .stopped r) : KeepsInv r := by
  have hstorage (zone : Bool) : KeepsInv (.next (instructionStorageInterrupt zone s)) :=
    keepsInv_next (inv_instructionStorageInterrupt zone h)
  unfold State.fetchPlace at hr
  split at hr
  · split at hr
    · cases hr
      exact keepsInv_next (inv_takeInterrupt _ _ h)
    · cases hr
      exact .refused _
    · split at hr
      · cases hr
        exact hstorage _
      · split at hr
        · cases hr
          exact hstorage _
        · split at hr
          · cases hr
            exact hstorage _
          · cases hr
  · cases hr

theorem keepsInv_fetch (h : s.Inv) {r : Result} (hr : s.fetch = .error r) : KeepsInv r := by
  unfold State.fetch at hr
  split at hr
  · rename_i hstop
    cases hr
    exact keepsInv_fetchPlace h hstop
  · split at hr
    · cases hr
      split
      · exact keepsInv_next (inv_instructionMachineCheck h)
      · exact .refused _
    · cases hr

theorem keepsInv_executeNext (h : s.Inv) : KeepsInv (executeNext s) := by
  refine keepsInv_beforeInstruction _ h fun u hu => ?_
  split
  · rename_i hr
    exact keepsInv_tookInterrupt (keepsInv_fetch hu hr)
  · split
    · exact keepsInv_executeInstr _ (inv_afterFetch hu)
    · exact keepsInv_tookInterrupt (keepsInv_rejected _ (inv_afterFetch hu))

theorem keepsInv_boundary (input : HostInput) (h : s.Inv) : KeepsInv (boundary input s) := by
  unfold boundary
  split
  · exact .refused _
  · split
    · exact keepsInv_next (inv_recordException (inv_takeInterrupt _ _ h))
    · split
      · split
        · exact .fault _
        · exact keepsInv_next h
      · exact keepsInv_executeNext h

theorem keepsInv_step (h : s.Inv) : KeepsInv (step s) := by
  have hinput : State.Inv { s with inputs := s.inputs.tail, entry := none } := { h with }
  unfold step
  dsimp only
  split
  · exact keepsInv_next (inv_resetMachine _ _ hinput)
  · exact keepsInv_boundary _ (inv_recordUnconditional _ (inv_ticks _ hinput))

end

/-- Settles O5: a step is a reset, or the ticks of the timers and then an interrupt or an instruction, each of which keeps the
invariant. -/
theorem stepKeepsTheInvariant : Obligations.StepKeepsTheInvariant := by
  unfold Obligations.StepKeepsTheInvariant
  intro s t h ht
  exact (keepsInv_step h).of_eq_next ht

end Sys2Proof.Proofs
end

section
/-! PROOF. mfspr, mftb and mtspr (10_state.md R33, 49_processor_management.md R570 to R573). -/
namespace Sys2Proof.Proofs
open Sys2Proof Sys2Proof.Machine Sys2Proof.Laws

/-! ## Reading a register -/

/-- A table has no row for a number outside a list of all its numbers. -/
theorem lookup_eq_none_of_notMem {α : Type} {table : List (Nat × α)} {numbers : List Nat} {k : Nat}
    (hkeys : table.map Prod.fst ⊆ numbers) (h : k ∉ numbers) : table.lookup k = none :=
  List.lookup_eq_none_iff.2 fun _ hp => bne_iff_ne.2 fun e => h (e ▸ hkeys (List.mem_map_of_mem hp))

/-- A number that is unprivileged, or used in supervisor state. -/
theorem privilegedIf_allowed {s : State} {p : Bool} (h : p = true → s.prBit = false) (effect : Result) :
    privilegedIf p s effect = effect := by
  cases p
  · rfl
  · exact privileged_supervisor (h rfl) effect

theorem readForm_some (rt : Reg) (v : Word) (nr : Bool) (s : State) :
    ∃ t, readForm rt (some v) nr s = .next t ∧ Loads rt v nr s t := ⟨_, rfl, loads_setReg s rt v nr⟩

theorem readForm_none (rt : Reg) (nr : Bool) (s : State) :
    ∃ t, readForm rt none nr s = .next t ∧ OnlyMoves [rt] nr s t ∧ t.mem = s.mem :=
  ⟨_, rfl, onlyMoves_drawn s rt (s.free 0) 1 nr⟩

section
variable {s : State} {r : Reg} {n : BitVec 10} {nr : Bool}

theorem exec_mfspr (hp : n.getLsbD 4 = true → s.prBit = false) :
    exec (.mfspr r n nr) s = readForm r (s.sprValue n.toNat) nr s := privilegedIf_allowed hp _

/-- A number that names a register with the value v. -/
theorem mfspr_loads {v : Word} (hp : n.getLsbD 4 = true → s.prBit = false) (hv : s.sprValue n.toNat = some v) :
    RunsTo (.mfspr r n nr) s (Loads r v nr s) := by
  unfold RunsTo
  rw [exec_mfspr hp, hv]
  exact readForm_some r v nr s

theorem sprValue_unreadable {k : Nat} (h : k ∉ readableSprs) : s.sprValue k = none := by
  rw [State.sprValue, lookup_eq_none_of_notMem (numbers := readableSprs) (by decide) h]
  rfl

theorem exec_mftb_other (hl : n ≠ 0x10C) (hu : n ≠ 0x10D) : exec (.mftb r n nr) s = readForm r none nr s := by
  show readForm r (if n = 0x10C then _ else if n = 0x10D then _ else none) nr s = _
  rw [if_neg hl, if_neg hu]

/-! ## Writing a register -/

theorem exec_mtspr (hp : n.getLsbD 4 = true → s.prBit = false) :
    exec (.mtspr r n nr) s = .next ((writeSpr n.toNat (s.reg r) s).markCr0 nr) := privilegedIf_allowed hp _

theorem writeSpr_unwritable {k : Nat} (h : k ∉ writableSprs) (v : Word) (s : State) : writeSpr k v s = s.advance := by
  rw [writeSpr, lookup_eq_none_of_notMem (numbers := writableSprs) (by decide) h]

/-- A write of DBCR0 without a reset request. -/
theorem writeSpr_dbcr0 {v : Word} (h : v &&& 0x30000000 = 0) (s : State) :
    writeSpr 0x3F2 v s = State.advance { s with dbcr0 := v &&& dbcr0Mask } := by
  have hrst : v.extractLsb' 28 2 = 0 :=
    calc v.extractLsb' 28 2
      _ = v.extractLsb' 28 2 &&& (0x30000000 : Word).extractLsb' 28 2 := BitVec.and_allOnes.symm
      _ = (v &&& 0x30000000).extractLsb' 28 2 := BitVec.extractLsb'_and.symm
      _ = 0 := by rw [h]; rfl
  show writeDbcr0 v s = _
  simp [writeDbcr0, hrst, resetTypeOf]

/-- A write that leaves `u` but for pc, where `u` has the CR and pc of `s`. -/
theorem mtspr_leaves {u : State} (hp : n.getLsbD 4 = true → s.prBit = false) (hw : writeSpr n.toNat (s.reg r) s = u.advance)
    (hcr : u.cr = s.cr) (hpc : u.pc = s.pc) : RunsTo (.mtspr r n nr) s fun t =>
      CrKept nr s t ∧ t = { u with cr := t.cr, pc := s.pc + 4, freeCount := t.freeCount } := by
  have hend : (writeSpr n.toNat (s.reg r) s).markCr0 nr = u.finish nr := by
    rw [hw]
    cases nr <;> rfl
  obtain ⟨hframe, hkept⟩ := onlyAdvances_finish u nr
  refine ⟨_, exec_mtspr hp, ?_⟩
  rw [hend, ← hpc]
  refine ⟨?_, hframe⟩
  rwa [CrKept, hcr] at hkept

end

/-- Settles O47: each row names the register that `sprReaders` has under the same number. -/
theorem sprReads : Obligations.SprReads := by
  unfold Obligations.SprReads
  intro s r n nr hp
  refine ⟨?_, fun hn => ?_, ?_, ?_, fun hl hu => ?_⟩
  · simp only [List.forall_mem_cons, List.not_mem_nil, false_implies, implies_true, and_true]
    and_intros
    all_goals
      rintro rfl
      exact mfspr_loads hp rfl
  · unfold RunsTo
    rw [exec_mfspr hp, sprValue_unreadable hn]
    exact readForm_none r nr s
  · rintro rfl
    exact readForm_some r s.tbl nr s
  · rintro rfl
    exact readForm_some r s.tbu nr s
  · unfold RunsTo
    rw [exec_mftb_other hl hu]
    exact readForm_none r nr s

/-- Settles O48: each row names the state that `sprWriters` leaves under the same number, pc apart. -/
theorem sprWrites : Obligations.SprWrites := by
  unfold Obligations.SprWrites
  intro s r n nr hp
  refine ⟨?_, ?_, fun hn => ?_⟩
  · simp only [List.forall_mem_cons, List.not_mem_nil, false_implies, implies_true, and_true]
    and_intros
    all_goals
      rintro rfl
      exact mtspr_leaves hp rfl rfl rfl
  · rintro rfl hrst
    exact mtspr_leaves hp (writeSpr_dbcr0 hrst s) rfl rfl
  · exact mtspr_leaves hp (writeSpr_unwritable hn _ s) rfl rfl

end Sys2Proof.Proofs
end

section
/-! PROOF. The reservation pair, lwarx and stwcx. (41_storage_multiple_string_sync.md R317, R318, 10_state.md R113). -/
namespace Sys2Proof.Proofs
open Sys2Proof Sys2Proof.Machine Sys2Proof.Laws

/-- lwarx of an aligned accessible word. -/
theorem exec_lwarx {s : State} {r ra rb : Reg} {nr : Bool} (hal : misaligned (s.eaX ra rb) = false)
    (hacc : s.allAccessible false (byteAddresses (s.eaX ra rb) 4) = true) :
    exec (.lwarx r ra rb nr) s = .next
      ((State.setReg { s with reserve := true } r (s.memRead s.hostLog 0 (s.eaX ra rb) 4)).finish nr) := by
  show execLwarx r ra rb nr s = _
  have hparts := operandParts_partFails hacc
  simp only [execLwarx, alignmentStop_none hacc hal, busStop_none hparts, unlessStopped_none, loadDraws_zero 4 hparts,
    afterLoads_accessible (by decide) hacc]
  rfl

/-- stwcx. to an aligned accessible word, under a reservation and without. -/
theorem exec_stwcx {s : State} {r ra rb : Reg} (hal : misaligned (s.eaX ra rb) = false)
    (hacc : s.allAccessible true (byteAddresses (s.eaX ra rb) 4) = true) :
    exec (.stwcx r ra rb) s = .next { s with
      mem := if s.reserve then s.storeBytes (s.operandBytes (s.eaX ra rb) 4 (s.reg r)) else s.mem
      reserve := false
      cr := withCrField s.cr 0 (fourBits false false s.reserve (xerSo s.xer))
      pc := s.pc + 4 } := by
  show execStwcx r ra rb s = _
  simp only [execStwcx, alignmentStop_none hacc hal, busStop_none (operandParts_partFails hacc), unlessStopped_none,
    memWrite_accessible (by decide) hacc]
  cases s.reserve <;> rfl

/-- Settles O18: with every byte accessible nothing stops the access, so each instruction runs to one known state. -/
theorem reservationPair : Obligations.ReservationPair := by
  unfold Obligations.ReservationPair
  intro s r ra rb nr hm hal
  refine ⟨fun hacc => ⟨_, exec_lwarx hal hacc, ?_⟩, fun hacc => ⟨_, exec_stwcx hal hacc, rfl, ?_, ?_, ?_, rfl⟩⟩
  · obtain ⟨hr, ⟨hregs, hcr, -⟩, -⟩ :=
      loads_setReg { s with reserve := true } r (s.memRead s.hostLog 0 (s.eaX ra rb) 4) nr
    refine ⟨finish_reserve .., ?_, hregs, hcr, by cases nr <;> rfl⟩
    rw [hr, ← memRead_toNat (by decide) hacc s.hostLog 0, BitVec.ofNat_toNat, BitVec.setWidth_eq]
  · intro hres
    exact stored_operandBytes hm (by decide) hacc _ (if_pos hres)
  · intro hres
    simp [hres]
  · refine ⟨fun _ => ?_, fun k hk _ => ?_⟩
    · rw [crField_withCrField, if_pos rfl]
    · rw [crField_withCrField, if_neg hk]

end Sys2Proof.Proofs
end

section
/-! PROOF. Fetching the word at pc (20_memory.md R126). -/
namespace Sys2Proof.Proofs
open Sys2Proof Sys2Proof.Machine Sys2Proof.Laws

/-- The bytes of a word in the order of its region. -/
theorem fetchBytes_eq (s : State) (ra : Word) (little : Bool) :
    s.fetchBytes ra little = inOrder little ((List.range 4).map (s.fetchedByte ra)) := rfl

/-- A fetch that meets no bus error: nothing of the word is in a hole, and a device at its first byte answers word loads. -/
theorem fetch_ok {s : State} {ra : Word} {little : Bool} (hplace : s.fetchPlace = .real ra little)
    (hhole : ∀ k, k < 4 → s.isHole (ra + BitVec.ofNat 32 k) = false) (hwidth : s.refusesWidth false 4 ra = false) :
    s.fetch = .ok (inOrder little ((List.range 4).map (s.fetchedByte ra))) := by
  have hbus : s.busError false (wordRealAddresses ra) = false := by
    have hany : (wordRealAddresses ra).any s.isHole = false := by
      simpa [wordRealAddresses, byteAddresses] using hhole
    have hfirst : (wordRealAddresses ra).head? = some ra := by
      simp [wordRealAddresses, byteAddresses, List.range_succ_eq_map]
    have hlen : (wordRealAddresses ra).length = 4 := by simp [wordRealAddresses, byteAddresses]
    simp [State.busError, hany, hfirst, hlen, hwidth]
  simp [State.fetch, hplace, hbus, fetchBytes_eq]

theorem refusesWidth_of_not_device {s : State} {store : Bool} {n : Nat} {ra : Word} (h : s.isDevice ra = false) :
    s.refusesWidth store n ra = false := by
  rw [Bool.eq_false_iff] at h ⊢
  rw [Ne, refusesWidth_iff]
  rintro ⟨loads, stores, hkind, -⟩
  exact h ((isDevice_iff ..).2 ⟨loads, stores, hkind⟩)

/-- A word whose first byte is no device's is read from storage. -/
theorem fetch_storage {s : State} {ra : Word} {little : Bool} (hplace : s.fetchPlace = .real ra little)
    (hhole : ∀ k, k < 4 → s.isHole (ra + BitVec.ofNat 32 k) = false) (hdevice : s.isDevice ra = false) :
    s.fetch = .ok (inOrder little ((List.range 4).map fun k => Memory.read s.mem (ra + BitVec.ofNat 32 k).toNat)) := by
  have hbyte : s.fetchedByte ra = fun k => Memory.read s.mem (ra + BitVec.ofNat 32 k).toNat := by
    funext k
    simp [State.fetchedByte, hdevice]
  rw [fetch_ok hplace hhole (refusesWidth_of_not_device hdevice), hbyte]

/-- Settles O7. -/
theorem fetchReadsTheWordAtPc : Obligations.FetchReadsTheWordAtPc := by
  unfold Obligations.FetchReadsTheWordAtPc
  intro s ra little hplace hplain byte
  have hdevice : s.isDevice ra = false := by simpa using (hplain 0 (by decide)).2
  rw [fetch_storage hplace (fun k hk => (hplain k hk).1) hdevice]
  cases little <;> rfl

end Sys2Proof.Proofs
end

section
/-! PROOF. Address translation and protection (20_memory.md R140 to R155). -/
namespace Sys2Proof.Proofs
open Sys2Proof Sys2Proof.Machine Sys2Proof.Laws

/-! ## Pages (R142, R143) -/

theorem pageBytes_eq (e : TlbEntry) : e.pageBytes = 2 ^ (10 + e.ignored) := by
  rw [TlbEntry.pageBytes, TlbEntry.ignored, Nat.pow_add, Nat.pow_mul]

/-- `covers` compares the page numbers that remain once the page size has shifted the rest out. -/
theorem covers_iff (e : TlbEntry) (pid : BitVec 8) (ea : Word) : e.covers pid ea = true ↔ e.MatchesPage pid ea := by
  have hepn : e.epn.toNat * 1024 / e.pageBytes = (e.epn >>> e.ignored).toNat := by
    rw [pageBytes_eq, Nat.pow_add, ← Nat.div_div_eq_div_mul, BitVec.toNat_ushiftRight, Nat.shiftRight_eq_div_pow,
      Nat.mul_div_cancel _ (by decide)]
  have hea : ea.toNat / e.pageBytes = ((ea.extractLsb' 10 22) >>> e.ignored).toNat := by
    have := ea.isLt
    rw [pageBytes_eq, Nat.pow_add, ← Nat.div_div_eq_div_mul, BitVec.toNat_ushiftRight, Nat.shiftRight_eq_div_pow,
      BitVec.extractLsb'_toNat, Nat.shiftRight_eq_div_pow, Nat.mod_eq_of_lt (by omega)]
  rw [TlbEntry.MatchesPage, hepn, hea, BitVec.toNat_inj, eq_comm (b := e.epn >>> _)]
  simp only [TlbEntry.covers, Bool.and_eq_true, Bool.or_eq_true, beq_iff_eq, and_assoc]
  exact and_congr_right fun _ => and_comm

/-- Two words joined below bit n: the upper part is that of one, the n low-order bits are those of the other. -/
theorem toNat_join (x y : Word) (n : Nat) :
    ((x &&& BitVec.allOnes 32 <<< n) ||| (y &&& ~~~(BitVec.allOnes 32 <<< n))).toNat
      = x.toNat / 2 ^ n * 2 ^ n + y.toNat % 2 ^ n := by
  have hjoin : x.toNat / 2 ^ n * 2 ^ n + y.toNat % 2 ^ n = 2 ^ n * (x.toNat / 2 ^ n) ||| y.toNat % 2 ^ n := by
    rw [Nat.mul_comm, Nat.two_pow_add_eq_or_of_lt (Nat.mod_lt _ (by positivity))]
  rw [hjoin]
  apply Nat.eq_of_testBit_eq
  intro i
  simp only [BitVec.toNat_or, Nat.testBit_or, BitVec.testBit_toNat, BitVec.getLsbD_and, BitVec.getLsbD_not,
    BitVec.getLsbD_shiftLeft, BitVec.getLsbD_allOnes, Nat.testBit_two_pow_mul, Nat.testBit_div_two_pow, Nat.testBit_mod_two_pow]
  by_cases hi : i < 32
  · by_cases hn : i < n
    · simp [hi, hn, Nat.not_le.2 hn]
    · simp [hi, hn, Nat.not_lt.1 hn, show i - n < 32 by omega]
  · have hx : BitVec.getLsbD x (i - n + n) = false := BitVec.getLsbD_of_ge _ _ (by omega)
    simp [hi, hx, BitVec.getLsbD_of_ge y _ (Nat.not_lt.1 hi)]

theorem realAddress_toNat (e : TlbEntry) (ea : Word) :
    (e.realAddress ea).toNat = e.rpn.toNat * 1024 / e.pageBytes * e.pageBytes + ea.toNat % e.pageBytes := by
  have hrpn : (e.rpn ++ 0#10).toNat = e.rpn.toNat * 1024 := by
    rw [BitVec.toNat_append, Nat.shiftLeft_eq]
    exact Nat.or_zero _
  rw [TlbEntry.realAddress, TlbEntry.offsetMask, BitVec.not_not, toNat_join, hrpn, pageBytes_eq]

/-! ## The search (R143) -/

theorem mem_matchingEntries {pid : BitVec 8} {ea : Word} {k i : Nat} {l : List TlbEntry} {e : TlbEntry} :
    (i, e) ∈ matchingEntries pid ea k l ↔ ∃ j, i = k + j ∧ l[j]? = some e ∧ e.covers pid ea = true := by
  induction l generalizing k with
  | nil => simp [matchingEntries]
  | cons t l ih =>
    have hcons : (i, e) ∈ matchingEntries pid ea k (t :: l) ↔
        (i = k ∧ t = e ∧ e.covers pid ea = true) ∨ (i, e) ∈ matchingEntries pid ea (k + 1) l := by
      rw [matchingEntries]
      split
      · rw [List.mem_cons, Prod.mk.injEq]
        refine or_congr_left (and_congr_right fun _ => ?_)
        constructor
        · rintro rfl
          exact ⟨rfl, ‹_›⟩
        · exact fun h => h.1.symm
      · refine (or_iff_right ?_).symm
        rintro ⟨-, rfl, hcov⟩
        contradiction
    rw [hcons, ih]
    constructor
    · rintro (⟨rfl, rfl, hcov⟩ | ⟨j, rfl, hj, hcov⟩)
      · exact ⟨0, rfl, rfl, hcov⟩
      · exact ⟨j + 1, by omega, hj, hcov⟩
    · rintro ⟨j, rfl, hj, hcov⟩
      cases j with
      | zero => exact .inl ⟨rfl, Option.some.inj hj, hcov⟩
      | succ j => exact .inr ⟨j, by omega, hj, hcov⟩

/-- The matching entries stand in the order of their indexes. -/
theorem matchingEntries_sorted (pid : BitVec 8) (ea : Word) (k : Nat) (l : List TlbEntry) :
    (matchingEntries pid ea k l).Pairwise fun p q => p.1 < q.1 := by
  induction l generalizing k with
  | nil => exact .nil
  | cons t l ih =>
    rw [matchingEntries]
    split
    · refine .cons ?_ (ih _)
      rintro ⟨i, e⟩ hmem
      obtain ⟨j, rfl, -⟩ := mem_matchingEntries.1 hmem
      dsimp only
      omega
    · exact ih _

/-- The entries that a search of the UTLB finds. -/
theorem mem_matchingEntries_tlb {s : State} {ea : Word} {i : Nat} {e : TlbEntry} :
    (i, e) ∈ matchingEntries s.pid8 ea 0 s.tlb.toList ↔ ∃ h : i < 64, s.tlb[i] = e ∧ e.MatchesPage s.pid8 ea := by
  rw [mem_matchingEntries]
  constructor
  · rintro ⟨j, rfl, hj, hcov⟩
    obtain ⟨hlt, he⟩ := List.getElem?_eq_some_iff.1 hj
    rw [Nat.zero_add]
    exact ⟨by simpa using hlt, by simpa using he, (covers_iff ..).1 hcov⟩
  · rintro ⟨h, he, hm⟩
    exact ⟨i, (Nat.zero_add i).symm, by simpa [h] using he, (covers_iff ..).2 hm⟩

/-- A strictly sorted list has one element only. -/
theorem eq_singleton_iff {l : List (Nat × TlbEntry)} (h : l.Pairwise fun p q => p.1 < q.1) (x : Nat × TlbEntry) :
    l = [x] ↔ x ∈ l ∧ ∀ y ∈ l, y.1 = x.1 := by
  constructor
  · rintro rfl
    simp
  · rintro ⟨hx, hall⟩
    match l with
    | [y] => rw [List.mem_singleton.1 hx]
    | y :: z :: l =>
      have hy := hall y (by simp)
      have hz := hall z (by simp)
      have hlt := List.rel_of_pairwise_cons h (List.mem_cons_self (a := z))
      omega

theorem lookup_eq_hit_iff {s : State} {ea : Word} {i : Nat} {e : TlbEntry} :
    s.lookup ea = .hit i e ↔ matchingEntries s.pid8 ea 0 s.tlb.toList = [(i, e)] := by
  unfold State.lookup
  split <;> simp_all

theorem lookup_eq_miss_iff {s : State} {ea : Word} :
    s.lookup ea = .miss ↔ matchingEntries s.pid8 ea 0 s.tlb.toList = [] := by
  unfold State.lookup
  split <;> simp_all

/-- Settles O24. -/
theorem tlbSearchAndRealAddress : Obligations.TlbSearchAndRealAddress := by
  unfold Obligations.TlbSearchAndRealAddress
  intro s ea
  refine ⟨fun i e => ?_, ?_, fun e => realAddress_toNat e ea⟩
  · rw [lookup_eq_hit_iff, eq_singleton_iff (matchingEntries_sorted ..), mem_matchingEntries_tlb]
    constructor
    · rintro ⟨⟨hi, he, hm⟩, hall⟩
      exact ⟨hi, he, hm, fun j hj hmj => hall (j, s.tlb[j]) (mem_matchingEntries_tlb.2 ⟨hj, rfl, hmj⟩)⟩
    · rintro ⟨hi, he, hm, hall⟩
      refine ⟨⟨hi, he, hm⟩, fun ⟨j, f⟩ hmem => ?_⟩
      obtain ⟨hj, rfl, hmj⟩ := mem_matchingEntries_tlb.1 hmem
      exact hall j hj hmj
  · rw [lookup_eq_miss_iff, List.eq_nil_iff_forall_not_mem]
    constructor
    · exact fun h j hj hm => h (j, s.tlb[j]) (mem_matchingEntries_tlb.2 ⟨hj, rfl, hm⟩)
    · rintro h ⟨j, f⟩ hmem
      obtain ⟨hj, rfl, hm⟩ := mem_matchingEntries_tlb.1 hmem
      exact h j hj hm

/-! ## Zones and attributes (R147, R148, R153) -/

theorem zoneField_toNat (s : State) (e : TlbEntry) :
    (s.zoneField e).toNat = s.zpr.toNat / 2 ^ (30 - 2 * e.zsel.toNat) % 4 := by
  rw [State.zoneField, BitVec.extractLsb'_toNat, Nat.shiftRight_eq_div_pow]

theorem region_eq (ea : Word) : region ea = ea.toNat / 2 ^ 27 := by
  have := ea.isLt
  rw [region, BitVec.extractLsb'_toNat, Nat.shiftRight_eq_div_pow]
  omega

/-- A zone field as a number. -/
theorem zoneField_beq (s : State) (e : TlbEntry) (z : BitVec 2) :
    (s.zoneField e == z) = (s.zpr.toNat / 2 ^ (30 - 2 * e.zsel.toNat) % 4 == z.toNat) := by
  rw [← zoneField_toNat, Bool.eq_iff_iff, beq_iff_eq, beq_iff_eq, BitVec.toNat_inj]

theorem zoneDenies_iff (s : State) (e : TlbEntry) :
    s.zoneDenies e = true ↔ s.zpr.toNat / 2 ^ (30 - 2 * e.zsel.toNat) % 4 = 0 ∧ s.prBit = true := by
  rw [State.zoneDenies, zoneField_beq, Bool.and_eq_true, beq_iff_eq, and_comm]
  rfl

theorem zoneOverrides_eq (s : State) (e : TlbEntry) :
    let z := s.zpr.toNat / 2 ^ (30 - 2 * e.zsel.toNat) % 4
    s.zoneOverrides e = (z == 3 || (z == 2 && !s.prBit)) := by
  rw [State.zoneOverrides, zoneField_beq, zoneField_beq, Bool.and_comm]
  rfl

/-- What permits a fetch through the zone or the EX bit. -/
theorem ex_or_zoneOverrides_iff (s : State) (e : TlbEntry) :
    let z := s.zpr.toNat / 2 ^ (30 - 2 * e.zsel.toNat) % 4
    (e.ex || s.zoneOverrides e) = true ↔ e.ex = true ∨ z = 3 ∨ (z = 2 ∧ s.prBit = false) := by
  simp [zoneOverrides_eq]

/-! ## Translating a data access (R145 to R155) -/

theorem translateData_hit {s : State} {store : Bool} {ea : Word} {j : Nat} {e : TlbEntry} (hdr : s.drBit = true)
    (h : s.lookup ea = .hit j e) : s.translateData store ea =
      if s.zoneDenies e then .denied true false
      else if store && !(e.wr || s.zoneOverrides e) then .denied false false
      else if s.u0Fault store e.attributes then .denied false true
      else .real (e.realAddress ea) e.attributes := by
  simp [State.translateData, hdr, h]

theorem translateData_miss {s : State} {ea : Word} (store : Bool) (hdr : s.drBit = true) (h : s.lookup ea = .miss) :
    s.translateData store ea = .miss := by simp [State.translateData, hdr, h]

theorem translateData_duplicate {s : State} {ea : Word} (store : Bool) (hdr : s.drBit = true) (h : s.lookup ea = .duplicate) :
    s.translateData store ea = .duplicate := by simp [State.translateData, hdr, h]

theorem translateData_untranslated {s : State} (store : Bool) (ea : Word) (hdr : s.drBit = false) :
    s.translateData store ea = if s.u0Fault store (s.realDataAttributes ea) then .denied false true
      else .real ea (s.realDataAttributes ea) := by simp [State.translateData, hdr]

/-! ## Translating a fetch (R146) -/

theorem fetchPlace_untranslated {s : State} (hir : s.irBit = false) :
    s.fetchPlace = .real s.pc (s.realFetchAttributes s.pc).e := by simp [State.fetchPlace, hir]

/-- A translated fetch has a place where an entry matches, the zone and the EX bit permit it, and the page is not guarded. -/
theorem fetchPlace_eq_real_iff {s : State} {ra : Word} {little : Bool} (hir : s.irBit = true) :
    s.fetchPlace = .real ra little ↔ ∃ j e, s.lookup s.pc = .hit j e ∧ ra = e.realAddress s.pc ∧ little = e.e ∧
      s.zoneDenies e = false ∧ (e.ex || s.zoneOverrides e) = true ∧ e.g = false := by
  unfold State.fetchPlace
  rw [if_pos hir]
  cases hl : s.lookup s.pc with
  | miss => simp
  | duplicate => simp
  | hit j e =>
    have hhit : (∃ j' e', Lookup.hit j e = .hit j' e' ∧ ra = e'.realAddress s.pc ∧ little = e'.e ∧ s.zoneDenies e' = false ∧
        (e'.ex || s.zoneOverrides e') = true ∧ e'.g = false) ↔ ra = e.realAddress s.pc ∧ little = e.e ∧
        s.zoneDenies e = false ∧ (e.ex || s.zoneOverrides e) = true ∧ e.g = false := by
      constructor
      · rintro ⟨_, _, ⟨⟩, h⟩
        exact h
      · exact fun h => ⟨j, e, rfl, h⟩
    rw [hhit]
    dsimp only
    split
    · rename_i hzone
      simp [hzone]
    · split
      · rename_i hperm
        rw [Bool.not_eq_true'] at hperm
        simp [hperm]
      · split
        · rename_i hg
          simp [hg]
        · rename_i hzone hperm hg
          rw [Bool.not_eq_true', Bool.not_eq_false] at hperm
          rw [hperm, FetchPlace.real.injEq, eq_comm, eq_comm (a := e.e)]
          simp [hzone, hg]

/-- Settles O25. -/
theorem zoneProtection : Obligations.ZoneProtection := by
  unfold Obligations.ZoneProtection
  intro s store ea
  refine ⟨fun j e hdr h => ?_, translateData_miss store, translateData_duplicate store, fun hdr => ?_, fun hir => ?_,
    fun ra little hir hplace => ?_, fun j e hir h => ?_⟩
  · rw [translateData_hit hdr h]
    simp only [zoneDenies_iff, zoneOverrides_eq, State.u0Fault, Bool.and_eq_true, Bool.not_eq_true', Bool.or_assoc]
    rfl
  · rw [translateData_untranslated store ea hdr, ← region_eq]
    simp only [State.u0Fault, Bool.and_eq_true, and_assoc]
    rfl
  · rw [fetchPlace_untranslated hir, ← region_eq]
    rfl
  · obtain ⟨j, e, hl, hra, hle, hzone, hex, hg⟩ := (fetchPlace_eq_real_iff hir).1 hplace
    exact ⟨j, e, hl, hra, hle, fun h => Bool.eq_false_iff.1 hzone ((zoneDenies_iff ..).2 h), (ex_or_zoneOverrides_iff ..).1 hex, hg⟩
  · intro z hzone hex hg
    exact (fetchPlace_eq_real_iff hir).2
      ⟨j, e, h, rfl, rfl, Bool.eq_false_iff.2 fun hd => hzone ((zoneDenies_iff ..).1 hd), (ex_or_zoneOverrides_iff ..).2 hex, hg⟩

end Sys2Proof.Proofs
end

section
/-! PROOF. The loads and stores of one operand (40_storage_reference.md): what each leaves when nothing stops its access, first for
every access (`scalarLoad_runs`, `scalarStore_runs`), then for an accessible operand. -/
namespace Sys2Proof.Proofs
open Sys2Proof Sys2Proof.Machine Sys2Proof.Laws

/-! ## Bytes of a word and of a number -/

theorem bigEndianNat_cons (b : Byte) (bs : List Byte) : bigEndianNat (b :: bs) = b.toNat * 256 ^ bs.length + bigEndianNat bs := by
  have key (n : Nat) : bs.foldl (fun n b => 256 * n + b.toNat) n = n * 256 ^ bs.length + bigEndianNat bs := by
    unfold bigEndianNat
    induction bs generalizing n with
    | nil => simp
    | cons c cs ih =>
      rw [List.foldl_cons, List.foldl_cons, ih, ih (256 * 0 + c.toNat), List.length_cons, Nat.pow_succ]
      ring
  exact (key (256 * 0 + b.toNat)).trans (by rw [Nat.mul_zero, Nat.zero_add])

theorem bigEndianNat_lt (bs : List Byte) : bigEndianNat bs < 256 ^ bs.length := by
  induction bs with
  | nil => decide
  | cons b bs ih =>
    have hb : b.toNat < 256 := b.isLt
    rw [bigEndianNat_cons, List.length_cons, Nat.pow_succ]
    nlinarith

/-- The bytes of the number that bytes spell. -/
theorem byteOfNat_bigEndianNat {n k : Nat} {bs : List Byte} (hlen : bs.length = n) (hk : k < n) :
    byteOfNat n k (bigEndianNat bs) = bs[k].toNat := by
  subst hlen
  induction bs generalizing k with
  | nil => exact absurd hk (Nat.not_lt_zero k)
  | cons b bs ih =>
    have hlt := bigEndianNat_lt bs
    cases k with
    | zero =>
      have hb : b.toNat < 256 := b.isLt
      have hexp : (b :: bs).length - 1 - 0 = bs.length := rfl
      rw [byteOfNat, hexp, bigEndianNat_cons, Nat.add_comm, Nat.add_mul_div_right _ _ (by positivity), Nat.div_eq_of_lt hlt,
        Nat.zero_add]
      exact Nat.mod_eq_of_lt hb
    | succ k =>
      have hk' : k < bs.length := Nat.lt_of_succ_lt_succ hk
      have hpow : 256 ^ bs.length = 256 ^ (bs.length - 1 - k) * (256 * 256 ^ k) := by
        rw [← Nat.pow_succ', ← Nat.pow_add]
        congr 1
        omega
      have hexp : (b :: bs).length - 1 - (k + 1) = bs.length - 1 - k := by
        rw [List.length_cons]
        omega
      have hdiv : bigEndianNat (b :: bs) / 256 ^ (bs.length - 1 - k)
          = b.toNat * 256 ^ k * 256 + bigEndianNat bs / 256 ^ (bs.length - 1 - k) := by
        rw [bigEndianNat_cons, hpow, Nat.add_comm, show b.toNat * (256 ^ (bs.length - 1 - k) * (256 * 256 ^ k))
          = b.toNat * 256 ^ k * 256 * 256 ^ (bs.length - 1 - k) by ring, Nat.add_mul_div_right _ _ (by positivity), Nat.add_comm]
      rw [byteOfNat, hexp, hdiv, Nat.mul_add_mod_self_right, List.getElem_cons_succ]
      exact ih hk'

/-- A word spelled by bytes has those bytes. -/
theorem byteListOfWord_wordOfByteList (bs : List Byte) (h : bs.length ≤ 4) : byteListOfWord bs.length (wordOfByteList bs) = bs := by
  refine List.ext_getElem (by simp [byteListOfWord]) fun k _ hk => ?_
  apply BitVec.eq_of_toNat_eq
  simp only [byteListOfWord, List.getElem_map, List.getElem_range]
  rw [byteOfNat_eq, wordOfByteList_toNat bs h, byteOfNat_bigEndianNat rfl hk]

theorem byteReversed_wordOfByteList (bs : List Byte) (h : bs.length ≤ 4) :
    byteReversed bs.length (wordOfByteList bs) = wordOfByteList bs.reverse := by
  rw [byteReversed, byteListOfWord_wordOfByteList bs h]

theorem wordOfByteList_eq (bs : List Byte) (h : bs.length ≤ 4) : wordOfByteList bs = BitVec.ofNat 32 (bigEndianNat bs) := by
  rw [← wordOfByteList_toNat bs h, BitVec.ofNat_toNat, BitVec.setWidth_eq]

/-- Byte reversal counts the bytes from the other end. -/
theorem byteOfNat_byteReversed {n k : Nat} (v : Word) (hn : n ≤ 4) (hk : k < n) :
    byteOfNat n k (byteReversed n v).toNat = byteOfNat n (n - 1 - k) v.toNat := by
  have hlen : (byteListOfWord n v).reverse.length = n := by simp [byteListOfWord]
  rw [byteReversed, wordOfByteList_toNat _ (by omega), byteOfNat_bigEndianNat hlen hk, ← byteOfNat_eq]
  simp [byteListOfWord]

/-! ## Ends of instructions -/

@[simp] theorem afterLoads_mem (s : State) (parts : List (Word × Nat)) : (s.afterLoads parts).mem = s.mem := rfl
@[simp] theorem afterLoads_hostLog (s : State) (parts : List (Word × Nat)) :
    (s.afterLoads parts).hostLog = s.logLoads s.hostLog parts := rfl
@[simp] theorem reg_afterLoads (s : State) (parts : List (Word × Nat)) (q : Reg) : (s.afterLoads parts).reg q = s.reg q := rfl

/-- `u` differs from `s` in general registers, storage, the host's log and the count of free values only. -/
def DataFrame (s u : State) : Prop :=
  u = { s with gpr := u.gpr, mem := u.mem, hostLog := u.hostLog, freeCount := u.freeCount }

section
variable {s u : State}

theorem DataFrame.refl (s : State) : DataFrame s s := rfl

theorem DataFrame.setReg (h : DataFrame s u) (r : Reg) (v : Word) : DataFrame s (u.setReg r v) := by
  rw [h]
  rfl

theorem DataFrame.drawn (h : DataFrame s u) (n : Nat) : DataFrame s (u.drawn n) := by
  rw [h]
  rfl

theorem DataFrame.afterLoads (h : DataFrame s u) (parts : List (Word × Nat)) : DataFrame s (u.afterLoads parts) := by
  rw [h]
  rfl

theorem DataFrame.afterStores (h : DataFrame s u) (parts : List (Word × List Byte)) : DataFrame s (u.afterStores parts) := by
  rw [h]
  rfl

theorem DataFrame.freeRegs (h : DataFrame s u) (rs : List Reg) : DataFrame s (u.freeRegs rs) := by
  rw [freeRegs_eq, h]
  rfl

/-- The end of an instruction without a record bit. -/
theorem DataFrame.finish (h : DataFrame s u) (nr : Bool) : CrKept nr s (u.finish nr) ∧ u.finish nr = { s with
    gpr := u.gpr, cr := (u.finish nr).cr, mem := u.mem, pc := s.pc + 4, hostLog := u.hostLog,
    freeCount := (u.finish nr).freeCount } := by
  have hcr : u.cr = s.cr := by rw [h]
  have hkept := crKept_finish u nr
  rw [CrKept, hcr] at hkept
  refine ⟨hkept, ?_⟩
  rw [h]
  cases nr <;> rfl

/-- The same, of an instruction that leaves storage alone. -/
theorem DataFrame.finish_of_mem (h : DataFrame s u) (hmem : u.mem = s.mem) (nr : Bool) : CrKept nr s (u.finish nr) ∧
    u.finish nr = { s with
      gpr := (u.finish nr).gpr, cr := (u.finish nr).cr, pc := s.pc + 4, freeCount := (u.finish nr).freeCount,
      hostLog := (u.finish nr).hostLog } := by
  obtain ⟨hkept, heq⟩ := h.finish nr
  rw [finish_gpr, finish_hostLog]
  rw [hmem] at heq
  exact ⟨hkept, heq⟩

theorem DataFrame.onlyMoves {written : List Reg} (h : DataFrame s u) (hregs : RegsKept written s u) (nr : Bool) :
    OnlyMoves written nr { s with hostLog := (u.finish nr).hostLog } (u.finish nr) := by
  obtain ⟨hkept, heq⟩ := h.finish nr
  refine ⟨fun q hq => (reg_finish u nr q).trans (hregs q hq), hkept, ?_⟩
  rw [finish_hostLog, finish_gpr, finish_mem]
  exact heq

end

/-! ## Loads -/

/-- How a load extends what MemRead gives. -/
def extendOf (l : ScalarLoad) : Word → Word :=
  if l.signed then halfAlgebraic else if l.reversed then byteReversed l.width else zeroExtended

/-- A load as one of the two shared operations. -/
def runLoad (l : ScalarLoad) (rt ra : Reg) (ea : Word) (s : State) : Result :=
  if l.update then loadUpdateForm rt ra ea l.width (extendOf l) l.nr s else loadForm rt ea l.width (extendOf l) l.nr s

theorem exec_scalarLoad {s : State} {rt ra rb : Reg} {d : BitVec 16} {nr : Bool} : ∀ l ∈ scalarLoads rt ra rb d nr,
    ∀ ea, dataReference l.instr s = some (false, ea, l.width) → exec l.instr s = runLoad l rt ra ea s := by
  simp only [scalarLoads, List.forall_mem_cons, List.not_mem_nil, false_implies, implies_true, and_true]
  and_intros
  all_goals
    rintro ea ⟨⟩
    rfl

/-- The widths of the loads; only halfwords are sign-extended, and none of these is byte-reversed. -/
theorem scalarLoad_form {rt ra rb : Reg} {d : BitVec 16} {nr : Bool} : ∀ l ∈ scalarLoads rt ra rb d nr,
    0 < l.width ∧ l.width ≤ 4 ∧ (l.signed = true → l.reversed = false) := by
  simp [scalarLoads]

/-- The value of a load is the extension of what MemRead gives for the same bytes. -/
theorem scalarLoad_value {l : ScalarLoad} (hwidth : l.width ≤ 4) (hsigned : l.signed = true → l.reversed = false) (little : Bool)
    (f : Nat → Byte) : l.value little f = extendOf l (wordOfByteList (inOrder little ((List.range l.width).map f))) := by
  have hlen (b : Bool) : (inOrder b ((List.range l.width).map f)).length = l.width := by cases b <;> simp [inOrder]
  unfold ScalarLoad.value extendOf
  cases hs : l.signed with
  | true =>
    rw [hsigned hs, Bool.bne_false]
    simp only [if_true, halfAlgebraic, sext16, signedHalf, BitVec.signExtend]
    rw [← wordOfByteList_toNat _ (by rw [hlen]; exact hwidth)]
    rfl
  | false =>
    cases hr : l.reversed with
    | false => simp [zeroExtended, wordOfByteList_eq, hlen, hwidth]
    | true =>
      have hrev : inOrder (!little) ((List.range l.width).map f) = (inOrder little ((List.range l.width).map f)).reverse := by
        cases little <;> simp [inOrder]
      have hb := byteReversed_wordOfByteList (inOrder little ((List.range l.width).map f)) (by rw [hlen]; exact hwidth)
      rw [hlen, wordOfByteList_eq (List.reverse _) (by simp [hlen, hwidth])] at hb
      simp [hrev, hb]

/-- The value of a load depends on its bytes only. -/
theorem scalarLoad_value_congr {l : ScalarLoad} (little : Bool) {f g : Nat → Byte} (h : ∀ k, k < l.width → f k = g k) :
    l.value little f = l.value little g := by
  unfold ScalarLoad.value
  rw [List.map_congr_left fun k hk => h k (List.mem_range.1 hk)]

theorem loadForm_unstopped {rt : Reg} {ea : Word} {n : Nat} {extend : Word → Word} {nr : Bool} {s : State}
    (hstop : dataStop s false (byteAddresses ea n) (operandParts ea n) = none) : loadForm rt ea n extend nr s =
      .next ((((s.afterLoads (operandParts ea n)).drawn (s.loadDraws n (operandParts ea n))).setReg rt
        (extend (s.memRead s.hostLog 0 ea n))).finish nr) := by
  rw [loadForm, hstop, unlessStopped_none]

theorem loadUpdateForm_unstopped {rt ra : Reg} {ea : Word} {n : Nat} {extend : Word → Word} {nr : Bool} {s : State}
    (hstop : dataStop s false (byteAddresses ea n) (operandParts ea n) = none) : loadUpdateForm rt ra ea n extend nr s =
      let u := ((s.afterLoads (operandParts ea n)).drawn (s.loadDraws n (operandParts ea n))).setReg rt
        (extend (s.memRead s.hostLog 0 ea n))
      .next ((if ra = 0 ∨ ra = rt then (u.setReg ra (u.free 0)).drawn 1 else u.setReg ra ea).finish nr) := by
  rw [loadUpdateForm, hstop, unlessStopped_none]

/-- A load that nothing stops: the bytes it loads, and the accesses that the host sees. -/
theorem scalarLoad_runs {s : State} {rt ra rb : Reg} {d : BitVec 16} {nr : Bool} {l : ScalarLoad} {ea : Word}
    (hl : l ∈ scalarLoads rt ra rb d nr) (href : dataReference l.instr s = some (false, ea, l.width))
    (hstop : dataStop s false (byteAddresses ea l.width) (operandParts ea l.width) = none) :
    RunsTo l.instr s fun t =>
      l.Leaves rt ra ea (s.littleData false ea) (fun k => s.loadByte s.hostLog k ea l.width k) s t ∧
      t.hostLog = s.logLoads s.hostLog (operandParts ea l.width) := by
  obtain ⟨-, hwidth, hsigned⟩ := scalarLoad_form l hl
  have hvalue : extendOf l (s.memRead s.hostLog 0 ea l.width)
      = l.value (s.littleData false ea) (fun k => s.loadByte s.hostLog k ea l.width k) := by
    simp [scalarLoad_value hwidth hsigned, State.memRead, inOrder]
  have hframe := ((DataFrame.refl s).afterLoads (operandParts ea l.width)).drawn (s.loadDraws l.width (operandParts ea l.width))
    |>.setReg rt (extendOf l (s.memRead s.hostLog 0 ea l.width))
  unfold RunsTo ScalarLoad.Leaves
  rw [exec_scalarLoad l hl ea href, runLoad, ← hvalue]
  cases hu : l.update with
  | false =>
    refine ⟨_, loadForm_unstopped hstop, ⟨fun _ => by simp, nofun, hframe.onlyMoves (fun q hq => ?_) _, by simp⟩, by simp⟩
    rw [reg_setReg_other _ _ _ _ (by simpa using hq)]
    rfl
  | true =>
    refine ⟨_, loadUpdateForm_unstopped hstop, ?_⟩
    by_cases hra : ra = 0 ∨ ra = rt
    · rw [if_pos hra]
      refine ⟨⟨fun hne => ?_, fun _ h0 hne => absurd hra (not_or.2 ⟨h0, hne⟩),
        ((hframe.setReg _ _).drawn _).onlyMoves (fun q hq => ?_) _, by simp⟩, by simp⟩
      · simp [reg_setReg_other _ _ _ _ (Ne.symm (hne rfl))]
      · simp_all [reg_setReg_other]
    · rw [if_neg hra]
      refine ⟨⟨fun hne => ?_, fun _ _ _ => by simp, (hframe.setReg _ _).onlyMoves (fun q hq => ?_) _, by simp⟩, by simp⟩
      · simp [reg_setReg_other _ _ _ _ (Ne.symm (hne rfl))]
      · simp_all [reg_setReg_other]

/-! ## Loads of accessible operands -/

section
variable {s : State} {rt ra rb : Reg} {d : BitVec 16} {nr : Bool} {l : ScalarLoad} {ea : Word}

/-- A load of accessible bytes reads them from storage, and no device sees it. -/
theorem scalarLoad_accessible (hl : l ∈ scalarLoads rt ra rb d nr) (href : dataReference l.instr s = some (false, ea, l.width))
    (hacc : s.allAccessible false (byteAddresses ea l.width) = true) : RunsTo l.instr s fun t =>
      l.Leaves rt ra ea (s.littleData false ea) (fun k => s.byteAt false (ea + BitVec.ofNat 32 k)) s t ∧ t.hostLog = s.hostLog := by
  obtain ⟨hpos, -, -⟩ := scalarLoad_form l hl
  obtain ⟨t, ht, ⟨hrt, hleaves⟩, hlog⟩ := scalarLoad_runs hl href (dataStop_none hacc (operandParts_partFails hacc))
  rw [logLoads_accessible _ (operandParts_accessible hpos hacc)] at hlog
  rw [scalarLoad_value_congr _ fun k hk => loadByte_accessible s.hostLog k hk hacc] at hrt
  exact ⟨t, ht, ⟨hrt, hleaves⟩, hlog⟩

/-- The value of a load, read from storage. -/
theorem scalarLoad_value_byteAt (l : ScalarLoad) (s : State) (ea : Word) :
    l.value (s.littleData false ea) (fun k => s.byteAt false (ea + BitVec.ofNat 32 k)) =
      let v := if l.reversed then s.loadedReversed ea l.width else s.loaded ea l.width
      if l.signed then BitVec.ofInt 32 (signedHalf v) else BitVec.ofNat 32 v := by
  have hbytes : (List.range l.width).map (fun k => s.byteAt false (ea + BitVec.ofNat 32 k)) = s.bytesAt false ea l.width := by
    simp [State.bytesAt, byteAddresses]
  unfold ScalarLoad.value
  rw [hbytes]
  cases l.reversed <;> simp [State.loaded, State.loadedReversed]

/-- A load without update from accessible bytes. -/
theorem scalarLoad_loads (hl : l ∈ scalarLoads rt ra rb d nr) (href : dataReference l.instr s = some (false, ea, l.width))
    (hu : l.update = false) (hacc : s.allAccessible false (byteAddresses ea l.width) = true) : RunsTo l.instr s (Loads rt
      (let v := if l.reversed then s.loadedReversed ea l.width else s.loaded ea l.width
       if l.signed then BitVec.ofInt 32 (signedHalf v) else BitVec.ofNat 32 v) l.nr s) := by
  obtain ⟨t, ht, ⟨hrt, -, hmoves, hmem⟩, hlog⟩ := scalarLoad_accessible hl href hacc
  rw [hlog, hu] at hmoves
  rw [scalarLoad_value_byteAt] at hrt
  exact ⟨t, ht, hrt (by simp [hu]), hmoves, hmem⟩

/-- A load with update from accessible bytes. -/
theorem scalarLoad_updates (hl : l ∈ scalarLoads rt ra rb d nr) (href : dataReference l.instr s = some (false, ea, l.width))
    (hu : l.update = true) (hacc : s.allAccessible false (byteAddresses ea l.width) = true) : RunsTo l.instr s fun t =>
      (ra ≠ rt → t.reg rt = (let v := if l.reversed then s.loadedReversed ea l.width else s.loaded ea l.width
        if l.signed then BitVec.ofInt 32 (signedHalf v) else BitVec.ofNat 32 v)) ∧
      (ra ≠ 0 → ra ≠ rt → t.reg ra = ea) ∧ OnlyMoves [rt, ra] l.nr s t ∧ t.mem = s.mem := by
  obtain ⟨t, ht, ⟨hrt, hra, hmoves, hmem⟩, hlog⟩ := scalarLoad_accessible hl href hacc
  rw [hlog, hu] at hmoves
  rw [scalarLoad_value_byteAt] at hrt
  exact ⟨t, ht, fun hne => hrt fun _ => hne, hra hu, hmoves, hmem⟩

end

/-! ## Effective addresses (R260) -/

theorem eaD_eq (s : State) (ra : Reg) (d : BitVec 16) :
    s.eaD ra d = BitVec.ofInt 32 ((if ra = 0 then 0 else (s.reg ra).toInt) + d.toInt) := by
  rw [State.eaD, State.ra0, sext16, BitVec.signExtend, BitVec.ofInt_add]
  split <;> simp

theorem eaX_eq (s : State) (ra rb : Reg) :
    s.eaX ra rb = BitVec.ofNat 32 ((if ra = 0 then 0 else (s.reg ra).toNat) + (s.reg rb).toNat) := by
  rw [State.eaX, State.ra0, BitVec.ofNat_add]
  split <;> simp

/-- Settles O11: each instruction is a row of `scalarLoads` without update. -/
theorem loadsReadTheirOperand : Obligations.LoadsReadTheirOperand := by
  unfold Obligations.LoadsReadTheirOperand
  intro s rt ra rb d nr
  have row := @scalarLoad_loads s rt ra rb d nr
  refine ⟨eaD_eq s ra d, eaX_eq s ra rb, fun h => ?_, fun h => ?_, fun h => ⟨?_, ?_⟩, fun h => ⟨?_, ?_, ?_⟩, fun h => ?_,
    fun h => ⟨?_, ?_⟩⟩
  · exact row (l := ⟨.lbz rt ra d, 1, false, false, false, false⟩) (by simp [scalarLoads]) rfl rfl h
  · exact row (l := ⟨.lbzx rt ra rb nr, 1, false, false, false, nr⟩) (by simp [scalarLoads]) rfl rfl h
  · exact row (l := ⟨.lhz rt ra d, 2, false, false, false, false⟩) (by simp [scalarLoads]) rfl rfl h
  · exact row (l := ⟨.lha rt ra d, 2, true, false, false, false⟩) (by simp [scalarLoads]) rfl rfl h
  · exact row (l := ⟨.lhzx rt ra rb nr, 2, false, false, false, nr⟩) (by simp [scalarLoads]) rfl rfl h
  · exact row (l := ⟨.lhax rt ra rb nr, 2, true, false, false, nr⟩) (by simp [scalarLoads]) rfl rfl h
  · exact row (l := ⟨.lhbrx rt ra rb nr, 2, false, true, false, nr⟩) (by simp [scalarLoads]) rfl rfl h
  · exact row (l := ⟨.lwz rt ra d, 4, false, false, false, false⟩) (by simp [scalarLoads]) rfl rfl h
  · exact row (l := ⟨.lwzx rt ra rb nr, 4, false, false, false, nr⟩) (by simp [scalarLoads]) rfl rfl h
  · exact row (l := ⟨.lwbrx rt ra rb nr, 4, false, true, false, nr⟩) (by simp [scalarLoads]) rfl rfl h

/-- Settles O12: each instruction is a row of `scalarLoads` with update. -/
theorem updateLoadsWriteTheBase : Obligations.UpdateLoadsWriteTheBase := by
  unfold Obligations.UpdateLoadsWriteTheBase
  intro s rt ra rb d nr
  have row := @scalarLoad_updates s rt ra rb d nr
  refine ⟨fun h => ?_, fun h => ?_, fun h => ⟨?_, ?_⟩, fun h => ⟨?_, ?_⟩, fun h => ?_, fun h => ?_⟩
  · exact row (l := ⟨.lbzu rt ra d, 1, false, false, true, false⟩) (by simp [scalarLoads]) rfl rfl h
  · exact row (l := ⟨.lbzux rt ra rb nr, 1, false, false, true, nr⟩) (by simp [scalarLoads]) rfl rfl h
  · exact row (l := ⟨.lhzu rt ra d, 2, false, false, true, false⟩) (by simp [scalarLoads]) rfl rfl h
  · exact row (l := ⟨.lhau rt ra d, 2, true, false, true, false⟩) (by simp [scalarLoads]) rfl rfl h
  · exact row (l := ⟨.lhzux rt ra rb nr, 2, false, false, true, nr⟩) (by simp [scalarLoads]) rfl rfl h
  · exact row (l := ⟨.lhaux rt ra rb nr, 2, true, false, true, nr⟩) (by simp [scalarLoads]) rfl rfl h
  · exact row (l := ⟨.lwzu rt ra d, 4, false, false, true, false⟩) (by simp [scalarLoads]) rfl rfl h
  · exact row (l := ⟨.lwzux rt ra rb nr, 4, false, false, true, nr⟩) (by simp [scalarLoads]) rfl rfl h

/-! ## Stores -/

/-- What a store puts into storage with MemWrite, from the register's value. -/
def operandOf (l : ScalarStore) (v : Word) : Word := if l.reversed then byteReversed l.width v else v

/-- A store as one of the two shared operations. -/
def runStore (l : ScalarStore) (ra : Reg) (ea v : Word) (s : State) : Result :=
  if l.update then storeUpdateForm ra ea l.width (operandOf l v) l.nr s else storeForm ea l.width (operandOf l v) l.nr s

theorem exec_scalarStore {s : State} {rs ra rb : Reg} {d : BitVec 16} {nr : Bool} : ∀ l ∈ scalarStores rs ra rb d nr,
    ∀ ea, dataReference l.instr s = some (true, ea, l.width) → exec l.instr s = runStore l ra ea (s.reg rs) s := by
  simp only [scalarStores, List.forall_mem_cons, List.not_mem_nil, false_implies, implies_true, and_true]
  and_intros
  all_goals
    rintro ea ⟨⟩
    rfl

theorem scalarStore_form {rs ra rb : Reg} {d : BitVec 16} {nr : Bool} : ∀ l ∈ scalarStores rs ra rb d nr,
    0 < l.width ∧ l.width ≤ 4 := by
  simp [scalarStores]

theorem storeForm_unstopped {ea : Word} {n : Nat} {v : Word} {nr : Bool} {s : State}
    (hstop : dataStop s true (byteAddresses ea n) (operandParts ea n) = none) :
    storeForm ea n v nr s = .next ((s.memWrite ea n v).finish nr) := by
  rw [storeForm, hstop, unlessStopped_none]

theorem storeUpdateForm_unstopped {ra : Reg} {ea : Word} {n : Nat} {v : Word} {nr : Bool} {s : State}
    (hstop : dataStop s true (byteAddresses ea n) (operandParts ea n) = none) : storeUpdateForm ra ea n v nr s =
      let u := s.memWrite ea n v
      .next ((if ra = 0 then (u.setReg ra (u.free 0)).drawn 1 else u.setReg ra ea).finish nr) := by
  rw [storeUpdateForm, hstop, unlessStopped_none]

/-- A store that nothing stops leaves storage and the host's log as MemWrite does. -/
theorem scalarStore_runs {s : State} {rs ra rb : Reg} {d : BitVec 16} {nr : Bool} {l : ScalarStore} {ea : Word}
    (hl : l ∈ scalarStores rs ra rb d nr) (href : dataReference l.instr s = some (true, ea, l.width))
    (hstop : dataStop s true (byteAddresses ea l.width) (operandParts ea l.width) = none) : RunsTo l.instr s fun t =>
      l.Leaves ra ea s t ∧ t.mem = (s.memWrite ea l.width (operandOf l (s.reg rs))).mem ∧
      t.hostLog = (s.memWrite ea l.width (operandOf l (s.reg rs))).hostLog := by
  have hframe : DataFrame s (s.memWrite ea l.width (operandOf l (s.reg rs))) := (DataFrame.refl s).afterStores _
  have hregs (q : Reg) : (s.memWrite ea l.width (operandOf l (s.reg rs))).reg q = s.reg q := rfl
  unfold RunsTo ScalarStore.Leaves
  rw [exec_scalarStore l hl ea href, runStore]
  cases hu : l.update with
  | false => exact ⟨_, storeForm_unstopped hstop, ⟨nofun, hframe.onlyMoves (fun q _ => hregs q) _⟩, by simp⟩
  | true =>
    refine ⟨_, storeUpdateForm_unstopped hstop, ?_⟩
    by_cases hra : ra = 0
    · rw [if_pos hra]
      refine ⟨⟨fun _ h0 => absurd hra h0, ((hframe.setReg _ _).drawn _).onlyMoves (fun q hq => ?_) _⟩, by simp⟩
      rw [reg_drawn, reg_setReg_other _ _ _ _ (by simpa using hq), hregs]
    · rw [if_neg hra]
      refine ⟨⟨fun _ _ => by simp, (hframe.setReg _ _).onlyMoves (fun q hq => ?_) _⟩, by simp⟩
      rw [reg_setReg_other _ _ _ _ (by simpa using hq), hregs]

/-- Byte k of the operand of a store, from the lowest address. -/
theorem scalarStore_byte {l : ScalarStore} (hwidth : l.width ≤ 4) {k : Nat} (hk : k < l.width) (little : Bool) (v : Word) :
    l.byte little v.toNat k = byteOfNat l.width (if little then l.width - 1 - k else k) (operandOf l v).toNat := by
  unfold ScalarStore.byte operandOf
  cases l.reversed with
  | false => simp
  | true =>
    cases little with
    | false => simp [byteOfNat_byteReversed v hwidth hk]
    | true =>
      have hsub : l.width - 1 - (l.width - 1 - k) = k := by omega
      simp [byteOfNat_byteReversed v hwidth (show l.width - 1 - k < l.width by omega), hsub]

/-! ## Stores to accessible operands -/

section
variable {s : State} {rs ra rb : Reg} {d : BitVec 16} {nr : Bool} {l : ScalarStore} {ea : Word}

/-- A store to accessible bytes leaves its bytes in storage, and no device sees it. -/
theorem scalarStore_accessible (hm : Memory.wf s.mem = true) (hl : l ∈ scalarStores rs ra rb d nr)
    (href : dataReference l.instr s = some (true, ea, l.width)) (hacc : s.allAccessible true (byteAddresses ea l.width) = true) :
    RunsTo l.instr s fun t =>
      (if l.reversed then StoredReversed ea l.width (s.reg rs).toNat s t else Stored ea l.width (s.reg rs).toNat s t) ∧
      (l.update = true → ra ≠ 0 → t.reg ra = ea) ∧ OnlyMoves (if l.update then [ra] else []) l.nr s t := by
  obtain ⟨hpos, hwidth⟩ := scalarStore_form l hl
  obtain ⟨t, ht, ⟨hra, hmoves⟩, hmem, hlog⟩ := scalarStore_runs hl href (dataStop_none hacc (operandParts_partFails hacc))
  rw [memWrite_accessible hpos hacc] at hmem hlog
  rw [hlog] at hmoves
  obtain ⟨hholds, hkept⟩ := stored_operandBytes hm hwidth hacc t hmem
  refine ⟨t, ht, ?_, hra, hmoves⟩
  have hbytes : ∀ k, k < l.width → (Memory.read t.mem (s.realData true (ea + BitVec.ofNat 32 k)).toNat).toNat
      = l.byte (s.littleData true ea) (s.reg rs).toNat k := fun k hk => by
    rw [scalarStore_byte hwidth hk, hholds k hk]
  unfold ScalarStore.byte at hbytes
  cases hr : l.reversed <;> simp only [hr, Bool.bne_false, Bool.bne_true] at hbytes <;> exact ⟨hbytes, hkept⟩

/-- A store without update to accessible bytes. -/
theorem scalarStore_stores (hm : Memory.wf s.mem = true) (hl : l ∈ scalarStores rs ra rb d nr)
    (href : dataReference l.instr s = some (true, ea, l.width)) (hu : l.update = false)
    (hacc : s.allAccessible true (byteAddresses ea l.width) = true) : RunsTo l.instr s fun t =>
      (if l.reversed then StoredReversed ea l.width (s.reg rs).toNat s t else Stored ea l.width (s.reg rs).toNat s t) ∧
      OnlyStores l.nr s t := by
  obtain ⟨t, ht, hstored, -, hmoves⟩ := scalarStore_accessible hm hl href hacc
  rw [hu] at hmoves
  exact ⟨t, ht, hstored, hmoves⟩

/-- A store with update to accessible bytes. -/
theorem scalarStore_updates (hm : Memory.wf s.mem = true) (hl : l ∈ scalarStores rs ra rb d nr)
    (href : dataReference l.instr s = some (true, ea, l.width)) (hu : l.update = true)
    (hacc : s.allAccessible true (byteAddresses ea l.width) = true) : RunsTo l.instr s fun t =>
      (if l.reversed then StoredReversed ea l.width (s.reg rs).toNat s t else Stored ea l.width (s.reg rs).toNat s t) ∧
      (ra ≠ 0 → t.reg ra = ea) ∧ OnlyMoves [ra] l.nr s t := by
  obtain ⟨t, ht, hstored, hra, hmoves⟩ := scalarStore_accessible hm hl href hacc
  rw [hu] at hmoves
  exact ⟨t, ht, hstored, hra hu, hmoves⟩

end

/-- Settles O13: each instruction is a row of `scalarStores` without update. -/
theorem storesWriteTheirOperand : Obligations.StoresWriteTheirOperand := by
  unfold Obligations.StoresWriteTheirOperand
  intro s rs ra rb d nr hm
  have row := @scalarStore_stores s rs ra rb d nr
  refine ⟨fun h => ?_, fun h => ?_, fun h => ?_, fun h => ⟨?_, ?_⟩, fun h => ?_, fun h => ⟨?_, ?_⟩⟩
  · exact row (l := ⟨.stb rs ra d, 1, false, false, false⟩) hm (by simp [scalarStores]) rfl rfl h
  · exact row (l := ⟨.stbx rs ra rb nr, 1, false, false, nr⟩) hm (by simp [scalarStores]) rfl rfl h
  · exact row (l := ⟨.sth rs ra d, 2, false, false, false⟩) hm (by simp [scalarStores]) rfl rfl h
  · exact row (l := ⟨.sthx rs ra rb nr, 2, false, false, nr⟩) hm (by simp [scalarStores]) rfl rfl h
  · exact row (l := ⟨.sthbrx rs ra rb nr, 2, true, false, nr⟩) hm (by simp [scalarStores]) rfl rfl h
  · exact row (l := ⟨.stw rs ra d, 4, false, false, false⟩) hm (by simp [scalarStores]) rfl rfl h
  · exact row (l := ⟨.stwx rs ra rb nr, 4, false, false, nr⟩) hm (by simp [scalarStores]) rfl rfl h
  · exact row (l := ⟨.stwbrx rs ra rb nr, 4, true, false, nr⟩) hm (by simp [scalarStores]) rfl rfl h

/-- Settles O14: each instruction is a row of `scalarStores` with update. -/
theorem updateStoresWriteTheBase : Obligations.UpdateStoresWriteTheBase := by
  unfold Obligations.UpdateStoresWriteTheBase
  intro s rs ra rb d nr hm
  have row := @scalarStore_updates s rs ra rb d nr
  refine ⟨fun h => ?_, fun h => ?_, fun h => ?_, fun h => ?_, fun h => ?_, fun h => ?_⟩
  · exact row (l := ⟨.stbu rs ra d, 1, false, true, false⟩) hm (by simp [scalarStores]) rfl rfl h
  · exact row (l := ⟨.stbux rs ra rb nr, 1, false, true, nr⟩) hm (by simp [scalarStores]) rfl rfl h
  · exact row (l := ⟨.sthu rs ra d, 2, false, true, false⟩) hm (by simp [scalarStores]) rfl rfl h
  · exact row (l := ⟨.sthux rs ra rb nr, 2, false, true, nr⟩) hm (by simp [scalarStores]) rfl rfl h
  · exact row (l := ⟨.stwu rs ra d, 4, false, true, false⟩) hm (by simp [scalarStores]) rfl rfl h
  · exact row (l := ⟨.stwux rs ra rb nr, 4, false, true, nr⟩) hm (by simp [scalarStores]) rfl rfl h

end Sys2Proof.Proofs
end

section
/-! PROOF. Which instructions change storage, and where (20_memory.md R130, R176, 47_cache_management.md R507). -/
namespace Sys2Proof.Proofs
open Sys2Proof Sys2Proof.Machine Sys2Proof.Laws

/-! ## Outcomes that leave storage alone -/

/-- Every next state has the storage of `s`. -/
def MemKept (s : State) (r : Result) : Prop := NextHas (fun t => t.mem = s.mem) r

theorem takesSome_mem {s : State} : ∀ t, TakesSome s t → t.mem = s.mem := by
  rintro t ⟨k, saved, -, -, -, -, h⟩
  rw [h]

@[simp] theorem freeRegs_mem (s : State) (rs : List Reg) : (s.freeRegs rs).mem = s.mem := by
  rw [freeRegs_eq]

section
variable {s : State}

theorem memKept_next {t : State} (h : t.mem = s.mem) : MemKept s (.next t) := .next h

theorem memKept_finish {t : State} {nr : Bool} (h : t.mem = s.mem) : MemKept s (.next (t.finish nr)) :=
  memKept_next ((finish_mem t nr).trans h)

theorem memKept_unlessStopped {stop : Option Result} {effect : Result} (hstop : StopsByInterrupt s stop)
    (h : MemKept s effect) : MemKept s (unlessStopped stop effect) := nextHas_unlessStopped hstop takesSome_mem h

theorem memKept_privileged {effect : Result} (h : MemKept s effect) : MemKept s (privileged s effect) :=
  nextHas_privileged takesSome_mem h

end

section
variable (s : State)

theorem memKept_loadForm (rt : Reg) (ea : Word) (n : Nat) (extend : Word → Word) (nr : Bool) :
    MemKept s (loadForm rt ea n extend nr s) := memKept_unlessStopped (dataStop_stops ..) (memKept_finish rfl)

theorem memKept_loadUpdateForm (rt ra : Reg) (ea : Word) (n : Nat) (extend : Word → Word) (nr : Bool) :
    MemKept s (loadUpdateForm rt ra ea n extend nr s) :=
  memKept_unlessStopped (dataStop_stops ..) (memKept_finish (by split <;> rfl))

theorem memKept_execLmw (rt ra : Reg) (d : BitVec 16) : MemKept s (execLmw rt ra d s) :=
  memKept_unlessStopped (dataStop_stops ..) (memKept_next (by rw [advance_mem, freeRegs_mem]; rfl))

theorem memKept_stringLoadForm (rt : Reg) (bases : List Reg) (ea : Word) (count : Nat) (nr : Bool) :
    MemKept s (stringLoadForm rt bases ea count nr s) :=
  memKept_unlessStopped (dataStop_stops ..) (memKept_finish (by rw [freeRegs_mem]; rfl))

theorem memKept_execLwarx (rt ra rb : Reg) (nr : Bool) : MemKept s (execLwarx rt ra rb nr s) :=
  memKept_unlessStopped (alignmentStop_stops ..) (memKept_unlessStopped (busStop_stops ..) (memKept_finish rfl))

theorem memKept_cacheForm (store : Bool) (ea : Word) (nr : Bool) : MemKept s (cacheForm store ea nr s) :=
  memKept_unlessStopped (translationStopAt_stops ..) (memKept_finish rfl)

theorem memKept_execDcread (rt ra rb : Reg) (nr : Bool) : MemKept s (execDcread rt ra rb nr s) :=
  memKept_privileged (memKept_unlessStopped (alignmentStop_stops ..) (memKept_finish rfl))

theorem memKept_execIcread (ra rb : Reg) (nr : Bool) : MemKept s (execIcread ra rb nr s) :=
  memKept_privileged (memKept_unlessStopped (translationStopAt_stops ..) (memKept_finish rfl))

theorem memKept_divideForm (rt : Reg) (quotient : Option Word) (oe rc : Bool) : MemKept s (divideForm rt quotient oe rc s) := by
  cases quotient <;> exact memKept_next rfl

theorem memKept_execBcctr (bo bi : BitVec 5) (lk : Bool) : MemKept s (execBcctr bo bi lk s) := by
  unfold execBcctr
  split <;> exact memKept_next rfl

theorem memKept_returnForm (address status : Word) (nr : Bool) : MemKept s (returnForm address status nr s) :=
  memKept_privileged (memKept_next (by rw [markCr0_mem, returnFromInterrupt_mem]))

theorem memKept_execTlbre (rt ra : Reg) (ws : BitVec 5) (nr : Bool) : MemKept s (execTlbre rt ra ws nr s) :=
  memKept_privileged (memKept_finish (by rw [freeRegs_mem]; split <;> rfl))

theorem memKept_execTlbsx (rt ra rb : Reg) (rc : Bool) : MemKept s (execTlbsx rt ra rb rc s) := by
  refine memKept_privileged ?_
  split
  · exact memKept_next rfl
  · exact memKept_next rfl
  · exact .refused _

theorem afterDcr_mem (n : BitVec 10) (a : HostAccess) : (s.afterDcr n a).mem = s.mem := by
  unfold State.afterDcr
  split <;> rfl

/-- The state `u` is `s`, or `s` after an access to a device control register. -/
theorem memKept_readForm {s u : State} (rt : Reg) (v : Option Word) (nr : Bool) (h : u.mem = s.mem) :
    MemKept s (readForm rt v nr u) := by
  cases v <;> exact memKept_finish h

theorem memKept_execTw (tcond : BitVec 5) (ra rb : Reg) (nr : Bool) : MemKept s (execTw tcond ra rb nr s) := by
  unfold execTw
  split
  · exact (nextHas_trap s).mono takesSome_mem
  · exact memKept_finish rfl

theorem memKept_execTwi (tcond : BitVec 5) (ra : Reg) (im : BitVec 16) : MemKept s (execTwi tcond ra im s) := by
  unfold execTwi
  split
  · exact (nextHas_trap s).mono takesSome_mem
  · exact memKept_next rfl

theorem writeDbcr0_mem (v : Word) : (writeDbcr0 v s).mem = s.mem := by
  unfold writeDbcr0
  split
  · unfold resetMachine
    rfl
  · rfl

/-- No register that mtspr writes is storage; a reset through DBCR0 keeps storage too. -/
theorem sprWriter_mem : ∀ p ∈ sprWriters, ∀ v (s : State), (p.2 v s).mem = s.mem := by
  simp only [sprWriters, List.forall_mem_cons]
  simp [writeDbcr0_mem]

theorem writeSpr_mem (n : Nat) (v : Word) : (writeSpr n v s).mem = s.mem := by
  unfold writeSpr
  split
  · rename_i f hf
    obtain ⟨l₁, l₂, hl, -⟩ := List.lookup_eq_some_iff.1 hf
    exact sprWriter_mem (n, f) (by simp [hl]) v s
  · rfl

theorem memKept_execMtspr (rs : Reg) (sprn : BitVec 10) (nr : Bool) : MemKept s (execMtspr rs sprn nr s) :=
  nextHas_privilegedIf _ takesSome_mem (.next ((markCr0_mem ..).trans (writeSpr_mem ..)))

end

/-! ## Outcomes that change storage at given addresses only -/

/-- Every next state has the storage of `s` but at the real addresses of these effective addresses. -/
def ChangesOnlyAt (eas : List Word) (s : State) (r : Result) : Prop :=
  NextHas (fun t => ∀ a, (∀ ea ∈ eas, a ≠ (s.realData true ea).toNat) → Memory.read t.mem a = Memory.read s.mem a) r

section
variable {s : State} {eas : List Word}

theorem changesOnlyAt_unlessStopped {stop : Option Result} {effect : Result} (hstop : StopsByInterrupt s stop)
    (h : ChangesOnlyAt eas s effect) : ChangesOnlyAt eas s (unlessStopped stop effect) :=
  nextHas_unlessStopped hstop (fun t ht a _ => by rw [takesSome_mem t ht]) h

/-- A single store changes its own bytes only. -/
theorem storageBytes_address {part : Word × List Byte} {p : Word × Byte} (hp : p ∈ s.storageBytes part) :
    p.1 ∈ byteAddresses part.1 part.2.length := by
  unfold State.storageBytes at hp
  split at hp
  · exact absurd hp List.not_mem_nil
  · exact (List.of_mem_zip (a := p.1) (b := p.2) hp).1

/-- Single stores of bytes at these addresses, at the end of which `t` has their storage. -/
theorem changesOnlyAt_afterStores {parts : List (Word × List Byte)} {t : State} (ht : t.mem = (s.afterStores parts).mem)
    (h : ∀ part ∈ parts, ∀ ea ∈ byteAddresses part.1 part.2.length, ea ∈ eas) : ChangesOnlyAt eas s (.next t) := by
  refine .next fun a ha => ?_
  rw [ht]
  refine read_storeBytes_other fun p hp => ?_
  obtain ⟨part, hpart, hp⟩ := List.mem_flatMap.1 hp
  exact ha _ (h part hpart _ (storageBytes_address hp))

theorem byteAddresses_one (ea : Word) : byteAddresses ea 1 = [ea] := by simp [byteAddresses]

theorem byteParts_address {pairs : List (Word × Byte)} (h : ∀ p ∈ pairs, p.1 ∈ eas) :
    ∀ part ∈ byteParts pairs, ∀ ea ∈ byteAddresses part.1 part.2.length, ea ∈ eas := by
  intro part hpart ea hea
  obtain ⟨p, hp, rfl⟩ := List.mem_map.1 hpart
  rw [List.length_singleton, byteAddresses_one, List.mem_singleton] at hea
  exact hea ▸ h p hp

/-- The single stores of an operand are at its bytes. -/
theorem operandStores_address (s : State) (ea : Word) (n : Nat) (v : Word) :
    ∀ part ∈ s.operandStores ea n v, ∀ a ∈ byteAddresses part.1 part.2.length, a ∈ byteAddresses ea n := by
  unfold State.operandStores
  split
  · intro part hpart
    obtain rfl := List.mem_singleton.1 hpart
    rw [orderedBytes_length]
    exact fun a ha => ha
  · exact byteParts_address fun p hp => operandBytes_address hp

theorem changesOnlyAt_storeForm (s : State) (ea : Word) (n : Nat) (v : Word) (nr : Bool) :
    ChangesOnlyAt (byteAddresses ea n) s (storeForm ea n v nr s) :=
  changesOnlyAt_unlessStopped (dataStop_stops ..) (changesOnlyAt_afterStores (finish_mem ..) (operandStores_address s ea n v))

theorem changesOnlyAt_storeUpdateForm (s : State) (ra : Reg) (ea : Word) (n : Nat) (v : Word) (nr : Bool) :
    ChangesOnlyAt (byteAddresses ea n) s (storeUpdateForm ra ea n v nr s) := by
  refine changesOnlyAt_unlessStopped (dataStop_stops ..) (changesOnlyAt_afterStores ?_ (operandStores_address s ea n v))
  rw [finish_mem]
  split <;> rfl

/-- The bytes of the words of stmw are those of its operand. -/
theorem multipleWords_address {rs : Reg} {ea a : Word} {p : Nat × Word} (hp : p ∈ multipleWords rs ea)
    (ha : a ∈ byteAddresses p.2 4) : a ∈ byteAddresses ea (4 * (32 - rs.toNat)) := by
  obtain ⟨k, hk, rfl⟩ := List.mem_map.1 hp
  obtain ⟨b, hb, rfl⟩ := List.mem_map.1 ha
  rw [List.mem_range] at hk hb
  dsimp only
  rw [BitVec.add_assoc, ← BitVec.ofNat_add]
  exact mem_byteAddresses (by omega)

theorem changesOnlyAt_execStmw (s : State) (rs ra : Reg) (d : BitVec 16) :
    ChangesOnlyAt (byteAddresses (s.eaD ra d) (4 * (32 - rs.toNat))) s (execStmw rs ra d s) := by
  refine changesOnlyAt_unlessStopped (dataStop_stops ..) (changesOnlyAt_afterStores (advance_mem _) fun part hpart a ha => ?_)
  obtain ⟨p, hp, hpart⟩ := List.mem_flatMap.1 hpart
  exact multipleWords_address hp (operandStores_address _ _ _ _ part hpart a ha)

theorem changesOnlyAt_stringStoreForm (s : State) (rs : Reg) (ea : Word) (count : Nat) (nr : Bool) :
    ChangesOnlyAt (byteAddresses ea count) s (stringStoreForm rs ea count nr s) := by
  refine changesOnlyAt_unlessStopped (dataStop_stops ..) (changesOnlyAt_afterStores (finish_mem ..) (byteParts_address ?_))
  intro p hp
  obtain ⟨k, hk, rfl⟩ := List.mem_map.1 hp
  exact mem_byteAddresses (List.mem_range.1 hk)

theorem changesOnlyAt_execStwcx (s : State) (rs ra rb : Reg) :
    ChangesOnlyAt (byteAddresses (s.eaX ra rb) 4) s (execStwcx rs ra rb s) := by
  refine changesOnlyAt_unlessStopped (alignmentStop_stops ..) ?_
  split
  · exact changesOnlyAt_unlessStopped (busStop_stops ..) (changesOnlyAt_afterStores rfl (operandStores_address _ _ _ _))
  · exact .next fun a _ => rfl

theorem changesOnlyAt_execDcbz (s : State) (ra rb : Reg) (nr : Bool) :
    ChangesOnlyAt (byteAddresses (blockBase (s.eaX ra rb)) 32) s (execDcbz ra rb nr s) := by
  refine changesOnlyAt_unlessStopped (translationStopAt_stops ..) ?_
  split
  · exact .next fun a _ => by rw [takesSome_mem _ (takesSome_alignmentInterrupt _ s)]
  · refine changesOnlyAt_unlessStopped (busStop_stops ..) (changesOnlyAt_afterStores (finish_mem ..) (byteParts_address ?_))
    intro p hp
    obtain ⟨a, ha, rfl⟩ := List.mem_map.1 hp
    exact ha

end

/-! ## Every instruction -/

/-- The instruction stores in the bytes of its operand, or is dcbz and stores in its block. -/
def StoresInOperand (i : Instr) (s : State) : Prop :=
  ∃ ea n, dataReference i s = some (true, ea, n) ∧ (ChangesOnlyAt (byteAddresses ea n) s (exec i s) ∨
    (∃ ra rb nr, i = .dcbz ra rb nr) ∧ ChangesOnlyAt (byteAddresses (blockBase ea) 32) s (exec i s))

theorem storesInOperand_of {i : Instr} {s : State} {ea : Word} {n : Nat} (href : dataReference i s = some (true, ea, n))
    (h : ChangesOnlyAt (byteAddresses ea n) s (exec i s)) : StoresInOperand i s := ⟨ea, n, href, .inl h⟩

theorem memKept_or_storesInOperand (i : Instr) (s : State) : MemKept s (exec i s) ∨ StoresInOperand i s := by
  cases i with
  | lbz | lbzx | lha | lhax | lhz | lhzx | lwz | lwzx | lhbrx | lwbrx => exact .inl (memKept_loadForm ..)
  | lbzu | lbzux | lhau | lhaux | lhzu | lhzux | lwzu | lwzux => exact .inl (memKept_loadUpdateForm ..)
  | stb | stbx | sth | sthx | stw | stwx | sthbrx | stwbrx =>
    exact .inr (storesInOperand_of rfl (changesOnlyAt_storeForm ..))
  | stbu | stbux | sthu | sthux | stwu | stwux => exact .inr (storesInOperand_of rfl (changesOnlyAt_storeUpdateForm ..))
  | lmw => exact .inl (memKept_execLmw ..)
  | stmw => exact .inr (storesInOperand_of rfl (changesOnlyAt_execStmw ..))
  | lswi | lswx => exact .inl (memKept_stringLoadForm ..)
  | stswi | stswx => exact .inr (storesInOperand_of rfl (changesOnlyAt_stringStoreForm ..))
  | lwarx => exact .inl (memKept_execLwarx ..)
  | stwcx => exact .inr (storesInOperand_of rfl (changesOnlyAt_execStwcx ..))
  | dcbz ra rb nr => exact .inr ⟨_, _, rfl, .inr ⟨⟨ra, rb, nr, rfl⟩, changesOnlyAt_execDcbz s ra rb nr⟩⟩
  | add | addc | adde | addi | addic | addicRc | addis | addme | addze | neg | subf | subfc | subfe | subfic | subfme
  | subfze | mulhw | mulhwu | mulli | mullw => exact .inl (memKept_next rfl)
  | divw | divwu => exact .inl (memKept_divideForm ..)
  | macchw | macchws | macchwsu | macchwu | machhw | machhws | machhwsu | machhwu | maclhw | maclhws | maclhwsu | maclhwu
  | nmacchw | nmacchws | nmachhw | nmachhws | nmaclhw | nmaclhws | mulchw | mulchwu | mulhhw | mulhhwu | mullhw
  | mullhwu => exact .inl (memKept_next rfl)
  | and | andc | andi | andis | cntlzw | eqv | extsb | extsh | nand | nor | or | orc | ori | oris | xor | xori | xoris
  | rlwimi | rlwinm | rlwnm | slw | sraw | srawi | srw => exact .inl (memKept_next rfl)
  | cmp | cmpi | cmpl | cmpli | crand | crandc | creqv | crnand | crnor | cror | crorc | crxor | mcrf | mtcrf | mcrxr =>
    exact .inl (memKept_finish rfl)
  | b | bc | bclr => exact .inl (memKept_next rfl)
  | bcctr => exact .inl (memKept_execBcctr ..)
  | dcba | dcbt | dcbtst | icbt | eieio | isync | sync | mfcr => exact .inl (memKept_finish rfl)
  | dcbf | dcbst | icbi => exact .inl (memKept_cacheForm ..)
  | dcbi | dccci => exact .inl (memKept_privileged (memKept_cacheForm ..))
  | dcread => exact .inl (memKept_execDcread ..)
  | icread => exact .inl (memKept_execIcread ..)
  | iccci | mfmsr | mtmsr | wrtee | wrteei | tlbia | tlbsync | tlbwe => exact .inl (memKept_privileged (memKept_finish rfl))
  | rfci | rfi => exact .inl (memKept_returnForm ..)
  | tlbre => exact .inl (memKept_execTlbre ..)
  | tlbsx => exact .inl (memKept_execTlbsx ..)
  | mfdcr => exact .inl (memKept_privileged (memKept_readForm _ _ _ (afterDcr_mem ..)))
  | mtdcr => exact .inl (memKept_privileged (memKept_finish (afterDcr_mem ..)))
  | mfspr => exact .inl (nextHas_privilegedIf _ takesSome_mem (memKept_readForm _ _ _ rfl))
  | mftb => exact .inl (memKept_readForm _ _ _ rfl)
  | mtspr => exact .inl (memKept_execMtspr ..)
  | sc => exact .inl (memKept_next (takesSome_mem _ (takesSome_systemCallInterrupt s)))
  | tw => exact .inl (memKept_execTw ..)
  | twi => exact .inl (memKept_execTwi ..)

/-- An address that an outcome changes is the real address of one of the effective addresses. -/
theorem ChangesOnlyAt.mem {base : Word} {n a : Nat} {s t : State} {r : Result} (h : ChangesOnlyAt (byteAddresses base n) s r)
    (ht : r = .next t) (ha : Memory.read t.mem a ≠ Memory.read s.mem a) :
    ∃ k, k < n ∧ a = (s.realData true (base + BitVec.ofNat 32 k)).toNat := by
  by_contra hno
  refine ha (h.of_eq_next ht a fun ea hea he => hno ?_)
  obtain ⟨k, hk, rfl⟩ := List.mem_map.1 hea
  exact ⟨k, List.mem_range.1 hk, he⟩

/-- Settles O53. -/
theorem onlyStoresChangeStorage : Obligations.OnlyStoresChangeStorage := by
  unfold Obligations.OnlyStoresChangeStorage
  intro i s t a ht ha
  rcases memKept_or_storesInOperand i s with hkept | ⟨ea, n, href, hop | ⟨hdcbz, hblock⟩⟩
  · exact absurd (by rw [hkept.of_eq_next ht]) ha
  · exact ⟨ea, n, href, .inl (hop.mem ht ha)⟩
  · exact ⟨ea, n, href, .inr ⟨hdcbz, hblock.mem ht ha⟩⟩

end Sys2Proof.Proofs
end

section
/-! PROOF. Accesses to devices (20_memory.md R130, R133, R180, D8, D9): nothing stops an access whose every byte is a device's that
answers, the host sees its single accesses in order, and what is loaded is the devices' answers. -/
namespace Sys2Proof.Proofs
open Sys2Proof Sys2Proof.Machine Sys2Proof.Laws

/-! ## The checks of an access -/

section
variable {s : State} {store : Bool}

theorem translationStopAt_permitted {dear ea : Word} (h : s.permitted store ea = true) :
    translationStopAt s store dear ea = none := by
  unfold State.permitted at h
  unfold translationStopAt
  split at h <;> simp_all

theorem translationStop_permitted {eas : List Word} (h : ∀ ea ∈ eas, s.permitted store ea = true) :
    translationStop s store eas = none := by
  induction eas with
  | nil => rfl
  | cons a l ih =>
    rw [translationStop, translationStopAt_permitted (h a List.mem_cons_self)]
    exact ih fun ea he => h ea (List.mem_cons_of_mem _ he)

theorem alignmentStop_permitted {ea : Word} {eas : List Word} (h : ∀ ea ∈ eas, s.permitted store ea = true)
    (hal : misaligned ea = false) : alignmentStop s store ea eas = none := by
  simp [alignmentStop, translationStop_permitted h, hal]

theorem partFails_of_deviceAnswers {part : Word × Nat} (h : s.deviceAnswers store part = true) :
    s.partFails store part = false := by
  simp only [State.deviceAnswers, Bool.and_eq_true, Bool.not_eq_true'] at h
  exact h.2

theorem busStop_device {parts : List (Word × Nat)} (h : ∀ p ∈ parts, s.deviceAnswers store p = true) :
    busStop s store parts = none := busStop_none fun p hp => partFails_of_deviceAnswers (h p hp)

theorem dataStop_device {eas : List Word} {parts : List (Word × Nat)} (hperm : ∀ ea ∈ eas, s.permitted store ea = true)
    (hparts : ∀ p ∈ parts, s.deviceAnswers store p = true) : dataStop s store eas parts = none := by
  rw [dataStop, translationStop_permitted hperm]
  exact busStop_device hparts

theorem permitted_of_allDevice {ea : Word} {n : Nat} (h : s.allDevice store ea n) :
    ∀ a ∈ byteAddresses ea n, s.permitted store a = true := by
  intro a ha
  obtain ⟨k, hk, rfl⟩ := List.mem_map.1 ha
  exact (h k (List.mem_range.1 hk)).1

end

@[simp] theorem freeRegs_hostLog (s : State) (rs : List Reg) : (s.freeRegs rs).hostLog = s.hostLog := by
  rw [freeRegs_eq]

/-! ## Single accesses of several operands -/

section
variable {s : State} {store : Bool} {js : List Nat} {address : Nat → Word} {n : Nat}

/-- The single accesses of operands of n bytes, one after the other. -/
theorem flatMap_operandParts_device (hn : 0 < n) (h : ∀ j ∈ js, s.allDevice store (address j) n) :
    ∀ p ∈ js.flatMap (fun j => operandParts (address j) n), s.deviceAnswers store p = true := by
  intro p hp
  obtain ⟨j, hj, hp⟩ := List.mem_flatMap.1 hp
  exact operandParts_device hn (h j hj) p hp

theorem logLoads_operands (log : List HostAccess) (hn : 0 < n) (h : ∀ j ∈ js, s.allDevice false (address j) n) :
    s.logLoads log (js.flatMap fun j => operandParts (address j) n)
      = (js.flatMap fun j => s.deviceLoads (address j) n).reverse ++ log := by
  rw [logLoads_device log (flatMap_operandParts_device hn h), List.map_flatMap]
  simp only [operandParts_loads]

theorem logLoads_operand {ea : Word} (log : List HostAccess) (hn : 0 < n) (h : s.allDevice false ea n) :
    s.logLoads log (operandParts ea n) = (s.deviceLoads ea n).reverse ++ log := by
  rw [logLoads_device log (operandParts_device hn h), operandParts_loads]

/-- What MemRead gives of a device, after the accesses `before`. -/
theorem memRead_device {ea : Word} (before : List HostAccess) (k : Nat) (hn : n ≤ 4) (h : s.allDevice false ea n) :
    s.memRead (before.reverse ++ s.hostLog) k ea n = BitVec.ofNat 32 (bigEndianNat
      (inOrder (s.littleData false ea) ((List.range n).map (s.deviceAnswer before ea n)))) := by
  have hbytes : ((List.range n).map fun i => s.loadByte (before.reverse ++ s.hostLog) (k + i) ea n i)
      = (List.range n).map (s.deviceAnswer before ea n) :=
    List.map_congr_left fun i hi => loadByte_device before _ (List.mem_range.1 hi) h
  rw [State.memRead, hbytes]
  exact wordOfByteList_eq _ (by split <;> simpa using hn)

/-- An operand of one byte is a single access. -/
theorem operandParts_one (ea : Word) : operandParts ea 1 = [(ea, 1)] := by simp [operandParts, Nat.mod_one]

theorem deviceStores_one (s : State) (ea : Word) (byte : Nat → Nat) :
    s.deviceStores ea 1 byte = [.store (s.realData true ea) [BitVec.ofNat 8 (byte 0)]] := by
  simp [State.deviceStores, Nat.mod_one]

end

/-! ## Stores -/

section
variable {s : State}

theorem orderedBytes_eq (s : State) (ea : Word) (n : Nat) (v : Word) : s.orderedBytes ea n v =
    (List.range n).map fun k => BitVec.ofNat 8 (byteOfNat n (if s.littleData true ea then n - 1 - k else k) v.toNat) := by
  have hbyte (k : Nat) : BitVec.ofNat 8 (byteOfNat n k v.toNat) = v.extractLsb' (8 * (n - 1 - k)) 8 := by
    rw [← byteOfNat_eq, BitVec.ofNat_toNat, BitVec.setWidth_eq]
  unfold State.orderedBytes
  simp only [hbyte]
  cases s.littleData true ea with
  | false => rfl
  | true => exact List.ext_getElem (by simp [byteListOfWord]) fun k _ _ => by simp [byteListOfWord]

/-- The single stores of an operand, as the host sees them. -/
theorem operandStores_accesses (s : State) (ea : Word) (n : Nat) (v : Word) :
    (s.operandStores ea n v).map (fun p => HostAccess.store (s.realData true p.1) p.2)
      = s.deviceStores ea n fun k => byteOfNat n (if s.littleData true ea then n - 1 - k else k) v.toNat := by
  unfold State.operandStores State.deviceStores
  split
  · rw [List.map_singleton, orderedBytes_eq]
  · simp [byteParts, State.operandBytes, orderedBytes_eq, byteAddresses, List.zip_map']

theorem deviceStores_congr {f g : Nat → Nat} (ea : Word) (n : Nat) (h : ∀ k, k < n → f k = g k) :
    s.deviceStores ea n f = s.deviceStores ea n g := by
  have hmap {α : Type} (c : Nat → Nat → α) : ((List.range n).map fun k => c k (f k)) = (List.range n).map fun k => c k (g k) :=
    List.map_congr_left fun k hk => by rw [h k (List.mem_range.1 hk)]
  unfold State.deviceStores
  split
  · rw [hmap fun _ b => BitVec.ofNat 8 b]
  · exact hmap fun k b => HostAccess.store (s.realData true (ea + BitVec.ofNat 32 k)) [BitVec.ofNat 8 b]

/-- A single store of an operand has the address and width of a single access. -/
theorem operandStores_part {ea : Word} {n : Nat} {v : Word} {part : Word × List Byte} (h : part ∈ s.operandStores ea n v) :
    (part.1, part.2.length) ∈ operandParts ea n := by
  unfold State.operandStores at h
  unfold operandParts
  split
  · rw [if_pos ‹_›] at h
    obtain rfl := List.mem_singleton.1 h
    rw [orderedBytes_length]
    exact List.mem_singleton_self _
  · rw [if_neg ‹_›] at h
    obtain ⟨p, hp, rfl⟩ := List.mem_map.1 h
    exact List.mem_map.2 ⟨p.1, operandBytes_address hp, rfl⟩

theorem operandStores_device {ea : Word} {n : Nat} (v : Word) (hn : 0 < n) (h : s.allDevice true ea n) :
    ∀ part ∈ s.operandStores ea n v, s.deviceAnswers true (part.1, part.2.length) = true :=
  fun _ hpart => operandParts_device hn h _ (operandStores_part hpart)

/-- MemWrite to a device. -/
theorem memWrite_device {ea : Word} {n : Nat} (v : Word) (hn : 0 < n) (h : s.allDevice true ea n) :
    s.memWrite ea n v = { s with hostLog := (s.deviceStores ea n fun k =>
      byteOfNat n (if s.littleData true ea then n - 1 - k else k) v.toNat).reverse ++ s.hostLog } := by
  rw [State.memWrite, afterStores_device (operandStores_device v hn h), operandStores_accesses]

/-- Operands stored one after the other in devices. -/
theorem afterStores_operands_device {js : List Nat} {address value : Nat → Word} {n : Nat} (hn : 0 < n)
    (h : ∀ j ∈ js, s.allDevice true (address j) n) :
    s.afterStores (js.flatMap fun j => s.operandStores (address j) n (value j)) =
      { s with hostLog := (js.flatMap fun j => s.deviceStores (address j) n fun k =>
        byteOfNat n (if s.littleData true (address j) then n - 1 - k else k) (value j).toNat).reverse ++ s.hostLog } := by
  rw [afterStores_device]
  · rw [List.map_flatMap]
    simp only [operandStores_accesses]
  · intro part hpart
    obtain ⟨j, hj, hpart⟩ := List.mem_flatMap.1 hpart
    exact operandStores_device _ hn (h j hj) part hpart

/-- Bytes stored one by one in devices. -/
theorem afterStores_bytes_device {js : List Nat} {address : Nat → Word} (byte : Nat → Byte)
    (h : ∀ j ∈ js, s.allDevice true (address j) 1) : s.afterStores (byteParts (js.map fun j => (address j, byte j))) =
      { s with hostLog := (js.flatMap fun j => s.deviceStores (address j) 1 fun _ => (byte j).toNat).reverse ++ s.hostLog } := by
  rw [afterStores_device]
  · simp only [byteParts, deviceStores_one, List.map_map, BitVec.ofNat_toNat, BitVec.setWidth_eq]
    rw [List.map_eq_flatMap]
    rfl
  · intro part hpart
    obtain ⟨p, hp, rfl⟩ := List.mem_map.1 hpart
    obtain ⟨j, hj, rfl⟩ := List.mem_map.1 hp
    exact operandParts_device (by decide) (h j hj) _ (by rw [operandParts_one]; exact List.mem_singleton_self _)

end

/-! ## Bytes accessed one by one -/

section
variable {s : State} {store : Bool} {js : List Nat} {address : Nat → Word}

theorem singleBytes_map (js : List Nat) (address : Nat → Word) :
    singleBytes (js.map address) = js.flatMap fun j => operandParts (address j) 1 := by
  simp only [operandParts_one]
  rw [singleBytes, List.map_map]
  exact List.map_eq_flatMap

theorem busStop_bytes_device (h : ∀ j ∈ js, s.allDevice store (address j) 1) :
    busStop s store (singleBytes (js.map address)) = none := by
  rw [singleBytes_map]
  exact busStop_device (flatMap_operandParts_device (by decide) h)

theorem permitted_byte_device {ea : Word} (h : s.allDevice store ea 1) : s.permitted store ea = true :=
  permitted_of_allDevice h ea (by rw [byteAddresses_one]; exact List.mem_singleton_self ea)

theorem dataStop_bytes_device (h : ∀ j ∈ js, s.allDevice store (address j) 1) :
    dataStop s store (js.map address) (singleBytes (js.map address)) = none := by
  have hperm : ∀ a ∈ js.map address, s.permitted store a = true :=
    List.forall_mem_map.2 fun j hj => permitted_byte_device (h j hj)
  rw [dataStop, translationStop_permitted hperm]
  exact busStop_bytes_device h

end

/-! ## Scalar loads and stores -/

section
variable {s : State} {rt ra rb : Reg} {d : BitVec 16} {nr : Bool} {ea : Word}

theorem scalarLoad_device {l : ScalarLoad} (hl : l ∈ scalarLoads rt ra rb d nr)
    (href : dataReference l.instr s = some (false, ea, l.width)) (hdev : s.allDevice false ea l.width) :
    RunsTo l.instr s fun t => l.Leaves rt ra ea (s.littleData false ea) (s.deviceAnswer [] ea l.width) s t ∧
      Sees (s.deviceLoads ea l.width) s t := by
  obtain ⟨hpos, -, -⟩ := scalarLoad_form l hl
  obtain ⟨t, ht, ⟨hrt, hleaves⟩, hlog⟩ :=
    scalarLoad_runs hl href (dataStop_device (permitted_of_allDevice hdev) (operandParts_device hpos hdev))
  have hbytes : ∀ k, k < l.width → s.loadByte s.hostLog k ea l.width k = s.deviceAnswer [] ea l.width k :=
    fun k hk => loadByte_device [] k hk hdev
  rw [logLoads_operand _ hpos hdev] at hlog
  rw [scalarLoad_value_congr _ hbytes] at hrt
  exact ⟨t, ht, ⟨hrt, hleaves⟩, hlog⟩

theorem scalarStore_device {l : ScalarStore} (hl : l ∈ scalarStores rt ra rb d nr)
    (href : dataReference l.instr s = some (true, ea, l.width)) (hdev : s.allDevice true ea l.width) :
    RunsTo l.instr s fun t => l.Leaves ra ea s t ∧ t.mem = s.mem ∧
      Sees (s.deviceStores ea l.width (l.byte (s.littleData true ea) (s.reg rt).toNat)) s t := by
  obtain ⟨hpos, hwidth⟩ := scalarStore_form l hl
  obtain ⟨t, ht, hleaves, hmem, hlog⟩ :=
    scalarStore_runs hl href (dataStop_device (permitted_of_allDevice hdev) (operandParts_device hpos hdev))
  rw [memWrite_device _ hpos hdev] at hmem hlog
  rw [deviceStores_congr ea l.width fun k hk => (scalarStore_byte hwidth hk _ _).symm] at hlog
  exact ⟨t, ht, hleaves, hmem, hlog⟩

end

/-! ## Registers written in order -/

theorem writeRegs_cons (gpr : Vector Word 32) (p : Nat × Word) (ws : List (Nat × Word)) :
    writeRegs gpr (p :: ws) = writeRegs (gpr.setIfInBounds p.1 p.2) ws := rfl

/-- A register that is none of those written keeps its value. -/
theorem getElem_writeRegs_of_ne {js : List Nat} {register : Nat → Nat} {value : Nat → Word} {q : Nat} (gpr : Vector Word 32)
    (hq : q < 32) (h : ∀ j ∈ js, register j ≠ q) : (writeRegs gpr (js.map fun j => (register j, value j)))[q] = gpr[q] := by
  induction js generalizing gpr with
  | nil => rfl
  | cons i js ih =>
    rw [List.map_cons, writeRegs_cons, ih _ fun j hj => h j (List.mem_cons_of_mem _ hj)]
    exact Vector.getElem_setIfInBounds_ne hq (h i List.mem_cons_self)

/-- A register written once holds its value. -/
theorem getElem_writeRegs_of_mem {js : List Nat} {register : Nat → Nat} {value : Nat → Word} {j q : Nat} (gpr : Vector Word 32)
    (hq : q < 32) (hdistinct : js.Pairwise fun i k => register i ≠ register k) (hj : j ∈ js) (hjq : register j = q) :
    (writeRegs gpr (js.map fun j => (register j, value j)))[q] = value j := by
  induction js generalizing gpr with
  | nil => exact absurd hj List.not_mem_nil
  | cons i js ih =>
    obtain ⟨hi, hjs⟩ := List.pairwise_cons.1 hdistinct
    rw [List.map_cons, writeRegs_cons]
    rcases List.mem_cons.1 hj with rfl | hmem
    · rw [getElem_writeRegs_of_ne _ hq fun k hk => hjq ▸ (hi k hk).symm]
      subst hjq
      exact Vector.getElem_setIfInBounds_self hq
    · exact ih _ hjs hmem

/-- The numbers below j of those below n that satisfy a predicate. -/
theorem filter_range_lt {n j : Nat} (reads : Nat → Bool) (hj : j ≤ n) :
    ((List.range n).filter reads).filter (· < j) = (List.range j).filter reads := by
  obtain ⟨m, rfl⟩ := Nat.exists_eq_add_of_le hj
  have hlow : (List.range j).filter (· < j) = List.range j :=
    List.filter_eq_self.2 fun k hk => decide_eq_true (List.mem_range.1 hk)
  have hhigh : ((List.range m).map (j + ·)).filter (· < j) = [] := by
    simp [List.filter_eq_nil_iff]
  rw [List.filter_comm, List.range_add, List.filter_append, hlow, hhigh, List.append_nil]

/-! ## lmw and stmw -/

/-- Whether lmw loads its j-th word: not that of register RA, unless it is register 31 (R311). -/
def readsWord (rt ra : Reg) (j : Nat) : Bool := decide (rt.toNat + j ≠ ra.toNat) || decide (rt.toNat + j = 31)

/-- The j-th word of a multiple. -/
def wordAt (ea : Word) (j : Nat) : Word := ea + BitVec.ofNat 32 (4 * j)

/-- The bytes of the j-th word, by their numbers in the operand. -/
theorem map_bytes_of_word {α : Type} (byte : Nat → Nat → α) (j : Nat) :
    (List.range 4).map (fun b => byte ((4 * j + b) / 4) ((4 * j + b) % 4)) = (List.range 4).map (byte j) := by
  refine List.map_congr_left fun b hb => ?_
  have hb' := List.mem_range.1 hb
  rw [show (4 * j + b) / 4 = j by omega, show (4 * j + b) % 4 = b by omega]

theorem loadedWords_eq (rt ra : Reg) (ea : Word) : loadedWords rt ra ea =
    ((List.range (32 - rt.toNat)).filter (readsWord rt ra)).map fun j => (rt.toNat + j, wordAt ea j) := by
  rw [loadedWords, multipleWords, List.filter_map]
  rfl

theorem loadedWords_map {α : Type} (f : Nat × Word → α) (rt ra : Reg) (ea : Word) : (loadedWords rt ra ea).map f =
    ((List.range (32 - rt.toNat)).filter (readsWord rt ra)).map fun j => f (rt.toNat + j, wordAt ea j) := by
  rw [loadedWords_eq, List.map_map]
  rfl

theorem wordsParts_map (js : List Nat) (register : Nat → Nat) (address : Nat → Word) :
    wordsParts (js.map fun j => (register j, address j)) = js.flatMap fun j => operandParts (address j) 4 := by
  rw [wordsParts, List.flatMap_map]

theorem wordsBytes_permitted {s : State} {store : Bool} {js : List Nat} {register : Nat → Nat} {address : Nat → Word}
    (h : ∀ j ∈ js, s.allDevice store (address j) 4) :
    ∀ a ∈ wordsBytes (js.map fun j => (register j, address j)), s.permitted store a = true := by
  intro a ha
  obtain ⟨p, hp, ha⟩ := List.mem_flatMap.1 ha
  obtain ⟨j, hj, rfl⟩ := List.mem_map.1 hp
  exact permitted_of_allDevice (h j hj) a ha

/-- The accesses of the operands of n bytes before number j, of those that are read. -/
def loadsBefore (s : State) (reads : Nat → Bool) (address : Nat → Word) (n j : Nat) : List HostAccess :=
  ((List.range j).filter reads).flatMap fun i => s.deviceLoads (address i) n

section
variable {s : State} {r ra : Reg} {d : BitVec 16} {ea : Word}

/-- A word that lmw loads from devices. -/
theorem multipleWord_device (hdev : ∀ j, j < 32 - r.toNat → readsWord r ra j = true → s.allDevice false (wordAt ea j) 4) {j : Nat}
    (hj : j < 32 - r.toNat) (hread : readsWord r ra j = true) :
    s.multipleWord r (loadedWords r ra ea) (r.toNat + j, wordAt ea j) = BitVec.ofNat 32 (bigEndianNat
      (inOrder (s.littleData false (wordAt ea j))
        ((List.range 4).map (s.deviceAnswer (loadsBefore s (readsWord r ra) (wordAt ea) 4 j) (wordAt ea j) 4)))) := by
  have hbefore : (loadedWords r ra ea).filter (·.1 < r.toNat + j)
      = ((List.range j).filter (readsWord r ra)).map fun i => (r.toNat + i, wordAt ea i) := by
    rw [loadedWords_eq, List.filter_map, ← filter_range_lt _ (Nat.le_of_lt hj)]
    simp [Function.comp_def]
  have hread' : ∀ i ∈ (List.range j).filter (readsWord r ra), s.allDevice false (wordAt ea i) 4 := fun i hi => by
    obtain ⟨hi, hri⟩ := List.mem_filter.1 hi
    exact hdev i (by have := List.mem_range.1 hi; omega) hri
  rw [State.multipleWord, hbefore, wordsParts_map, logLoads_operands _ (by decide) hread']
  exact memRead_device _ _ (by decide) (hdev j hj hread)

/-- lmw from devices. -/
theorem lmw_device
    (hdev : ∀ j, j < 32 - r.toNat → readsWord r ra j = true → s.allDevice false (wordAt (s.eaD ra d) j) 4) :
    RunsTo (.lmw r ra d) s fun t =>
      LoadsMultiple r ra (s.eaD ra d) (fun k => s.deviceAnswer
        (loadsBefore s (readsWord r ra) (wordAt (s.eaD ra d)) 4 (k / 4)) (wordAt (s.eaD ra d) (k / 4)) 4 (k % 4)) s t ∧
      Sees (loadsBefore s (readsWord r ra) (wordAt (s.eaD ra d)) 4 (32 - r.toNat)) s t := by
  have hjs : ∀ j ∈ (List.range (32 - r.toNat)).filter (readsWord r ra), s.allDevice false (wordAt (s.eaD ra d) j) 4 :=
    fun j hj => hdev j (List.mem_range.1 (List.mem_filter.1 hj).1) (List.mem_filter.1 hj).2
  have hparts : wordsParts (loadedWords r ra (s.eaD ra d)) = ((List.range (32 - r.toNat)).filter (readsWord r ra)).flatMap
      fun j => operandParts (wordAt (s.eaD ra d) j) 4 := by rw [loadedWords_eq, wordsParts_map]
  have hstop : dataStop s false (wordsBytes (loadedWords r ra (s.eaD ra d))) (wordsParts (loadedWords r ra (s.eaD ra d))) = none :=
    dataStop_device (by rw [loadedWords_eq]; exact wordsBytes_permitted hjs)
      (by rw [hparts]; exact flatMap_operandParts_device (by decide) hjs)
  have hexec : exec (.lmw r ra d) s = execLmw r ra d s := rfl
  unfold RunsTo
  rw [hexec]
  simp only [execLmw, hstop, unlessStopped_none, loadedWords_map]
  refine ⟨_, rfl, ⟨fun q hrq hne => ?_, fun q hq => ?_, ?_⟩, ?_⟩
  · have hrq' : r.toNat ≤ q.toNat := hrq
    have hq : r.toNat + (q.toNat - r.toNat) = q.toNat := by omega
    have hj : q.toNat - r.toNat < 32 - r.toNat := by omega
    have hread : readsWord r ra (q.toNat - r.toNat) = true := by
      have : q.toNat ≠ ra.toNat := fun e => hne (BitVec.eq_of_toNat_eq e)
      simp [readsWord, hq, this]
    have hdistinct : ((List.range (32 - r.toNat)).filter (readsWord r ra)).Pairwise fun i k => r.toNat + i ≠ r.toNat + k :=
      (List.pairwise_lt_range.filter _).imp fun {i k} hik => by omega
    rw [reg_advance, reg_freeRegs (by split <;> simp [hne])]
    refine (getElem_writeRegs_of_mem _ q.isLt hdistinct (List.mem_filter.2 ⟨List.mem_range.2 hj, hread⟩) hq).trans ?_
    rw [multipleWord_device hdev hj hread, ← map_bytes_of_word fun j =>
      s.deviceAnswer (loadsBefore s (readsWord r ra) (wordAt (s.eaD ra d)) 4 j) (wordAt (s.eaD ra d) j) 4]
    rfl
  · have hq' : q.toNat < r.toNat := hq
    rw [reg_advance, reg_freeRegs]
    · exact getElem_writeRegs_of_ne _ q.isLt fun j _ => by omega
    · split
      · rename_i hrra
        rintro hmem
        have hrra' : r.toNat ≤ ra.toNat := hrra
        rw [List.mem_singleton.1 hmem] at hq'
        omega
      · exact List.not_mem_nil
  · rw [freeRegs_eq]
    rfl
  · rw [Sees, advance_hostLog, freeRegs_eq]
    show s.logLoads s.hostLog _ = _
    rw [hparts, logLoads_operands _ (by decide) hjs]
    rfl

/-- stmw to devices. -/
theorem stmw_device (hdev : ∀ j, j < 32 - r.toNat → s.allDevice true (wordAt (s.eaD ra d) j) 4) :
    RunsTo (.stmw r ra d) s fun t => OnlyStores false { s with hostLog := t.hostLog } t ∧ t.mem = s.mem ∧
      Sees ((List.range (32 - r.toNat)).flatMap fun j => s.deviceStores (wordAt (s.eaD ra d) j) 4 fun b =>
        multipleByte r (s.eaD ra d) s (4 * j + b)) s t := by
  have hjs : ∀ j ∈ List.range (32 - r.toNat), s.allDevice true (wordAt (s.eaD ra d) j) 4 := fun j hj =>
    hdev j (List.mem_range.1 hj)
  have hwords : multipleWords r (s.eaD ra d) = (List.range (32 - r.toNat)).map fun j => (r.toNat + j, wordAt (s.eaD ra d) j) := rfl
  have hstop : dataStop s true (wordsBytes (multipleWords r (s.eaD ra d))) (wordsParts (multipleWords r (s.eaD ra d))) = none :=
    dataStop_device (by rw [hwords]; exact wordsBytes_permitted hjs)
      (by rw [hwords, wordsParts_map]; exact flatMap_operandParts_device (by decide) hjs)
  have hbytes (j : Nat) : (s.deviceStores (wordAt (s.eaD ra d) j) 4 fun b => multipleByte r (s.eaD ra d) s (4 * j + b)) =
      s.deviceStores (wordAt (s.eaD ra d) j) 4 fun k => byteOfNat 4
        (if s.littleData true (wordAt (s.eaD ra d) j) then 4 - 1 - k else k) (s.reg (BitVec.ofNat 5 (r.toNat + j))).toNat :=
    deviceStores_congr _ _ fun b hb => by
      unfold multipleByte wordAt
      rw [show (4 * j + b) / 4 = j by omega, show (4 * j + b) % 4 = b by omega]
  have hexec : exec (.stmw r ra d) s = execStmw r ra d s := rfl
  unfold RunsTo
  rw [hexec]
  simp only [execStmw, hstop, unlessStopped_none]
  rw [hwords, List.flatMap_map, afterStores_operands_device (by decide) hjs]
  simp only [hbytes]
  exact ⟨_, rfl, ⟨fun q _ => rfl, ⟨fun _ => rfl, fun k _ => rfl⟩, rfl⟩, rfl, rfl⟩

end

/-! ## String instructions -/

/-- Whether a string load reads its byte k: that of no base register, or of the last register (R313). -/
def readsByte (rt : Reg) (bases : List Reg) (count k : Nat) : Bool :=
  bases.all (fun b => decide (stringTarget rt (k / 4) ≠ b.toNat)) || decide (k / 4 + 1 = (count + 3) / 4)

/-- Byte k of a string. -/
def byteAddress (ea : Word) (k : Nat) : Word := ea + BitVec.ofNat 32 k

section
variable {s : State} {rt : Reg} {bases : List Reg} {ea : Word} {count : Nat} {nr : Bool}

/-- The bytes of a register that is no base register are read. -/
theorem readsByte_of_notMem {k : Nat} {q : Reg} (hq : q.toNat = stringTarget rt (k / 4)) (hbase : q ∉ bases) :
    readsByte rt bases count k = true := by
  rw [readsByte, ← hq, Bool.or_eq_true, List.all_eq_true]
  exact .inl fun r hr => decide_eq_true fun e => hbase (BitVec.eq_of_toNat_eq e ▸ hr)

theorem stringLoads_eq {k : Nat} (hk : k < count) (hcount : count ≤ 128) :
    stringLoads rt (bases.map (·.toNat)) count (stringReg rt k) = readsByte rt bases count k := by
  have hbase : (!(bases.map (·.toNat)).contains (stringReg rt k)) = bases.all fun b => decide (stringTarget rt (k / 4) ≠ b.toNat) := by
    have hreg : stringReg rt k = stringTarget rt (k / 4) := rfl
    rw [hreg, List.contains_eq_any_beq, List.any_map, List.not_any_eq_all_not]
    simp [beq_eq_decide]
  have hlast : (stringReg rt k == stringLast rt count) = decide (k / 4 + 1 = (count + 3) / 4) := by
    rw [beq_eq_decide, decide_eq_decide, stringReg, stringLast]
    omega
  rw [stringLoads, hbase, hlast, readsByte]

theorem stringBytes_eq (hcount : count ≤ 128) :
    stringBytes rt (bases.map (·.toNat)) count = (List.range count).filter (readsByte rt bases count) :=
  List.filter_congr fun _ hk => stringLoads_eq (List.mem_range.1 hk) hcount

theorem stringParts_eq (ea : Word) (ks : List Nat) : stringParts ea ks = ks.flatMap fun k => operandParts (byteAddress ea k) 1 :=
  singleBytes_map ks (byteAddress ea)

/-- A base register that a string load fills is the register of a byte. -/
theorem mem_stringBasesFilled {q : Reg} (h : q ∈ stringBasesFilled rt bases count) :
    q ∈ bases ∧ ∃ k, k < count ∧ q.toNat = stringTarget rt (k / 4) := by
  obtain ⟨hq, hfilled⟩ := List.mem_filter.1 h
  obtain ⟨k, hk, hkq⟩ := List.any_eq_true.1 hfilled
  exact ⟨hq, k, List.mem_range.1 hk, (beq_iff_eq.1 hkq).symm⟩

/-- A byte that a string load reads from devices. -/
theorem stringByte_device
    (hdev : ∀ k, k < count → readsByte rt bases count k = true → s.allDevice false (byteAddress ea k) 1) {k : Nat}
    (hk : k < count) (hread : readsByte rt bases count k = true) :
    s.stringByte ea ((List.range count).filter (readsByte rt bases count)) k
      = s.deviceAnswer (loadsBefore s (readsByte rt bases count) (byteAddress ea) 1 k) (byteAddress ea k) 1 0 := by
  have hread' : ∀ i ∈ (List.range k).filter (readsByte rt bases count), s.allDevice false (byteAddress ea i) 1 := fun i hi => by
    obtain ⟨hi, hri⟩ := List.mem_filter.1 hi
    exact hdev i (by have := List.mem_range.1 hi; omega) hri
  have hload (log : List HostAccess) : s.loadPart log k (byteAddress ea k) 1 0 = s.loadByte log k (byteAddress ea k) 1 0 := by
    simp [State.loadByte, Nat.mod_one]
  rw [State.stringByte, filter_range_lt _ (Nat.le_of_lt hk), stringParts_eq, logLoads_operands _ (by decide) hread']
  exact (hload _).trans (loadByte_device _ k (by decide) (hdev k hk hread))

/-- A register that a string load fills from devices and that is no base register. -/
theorem stringWord_device (hdev : ∀ k, k < count → readsByte rt bases count k = true → s.allDevice false (byteAddress ea k) 1)
    {j : Nat} {q : Reg} (hq : q.toNat = stringTarget rt j) (hbase : q ∉ bases) :
    s.stringWord ea ((List.range count).filter (readsByte rt bases count)) count j = BitVec.ofNat 32 (bigEndianNat
      ((List.range 4).map fun b => if 4 * j + b < count then
        s.deviceAnswer (loadsBefore s (readsByte rt bases count) (byteAddress ea) 1 (4 * j + b)) (byteAddress ea (4 * j + b)) 1 0
        else 0)) := by
  rw [State.stringWord, wordOfByteList_eq _ (by simp)]
  congr 2
  refine List.map_congr_left fun b hb => ?_
  have hb' := List.mem_range.1 hb
  have hread : readsByte rt bases count (4 * j + b) = true :=
    readsByte_of_notMem (by rw [hq, show (4 * j + b) / 4 = j by omega]) hbase
  split
  · exact stringByte_device hdev ‹_› hread
  · rfl

/-- lswi and lswx from devices. -/
theorem stringLoadForm_device (hcount : count ≤ 128)
    (hdev : ∀ k, k < count → readsByte rt bases count k = true → s.allDevice false (byteAddress ea k) 1) :
    ∃ t, stringLoadForm rt bases ea count nr s = .next t ∧
      FillsRegisters rt bases count nr (fun k =>
        s.deviceAnswer (loadsBefore s (readsByte rt bases count) (byteAddress ea) 1 k) (byteAddress ea k) 1 0) s t ∧
      Sees (loadsBefore s (readsByte rt bases count) (byteAddress ea) 1 count) s t := by
  have hks : ∀ k ∈ (List.range count).filter (readsByte rt bases count), s.allDevice false (byteAddress ea k) 1 := fun k hk =>
    hdev k (List.mem_range.1 (List.mem_filter.1 hk).1) (List.mem_filter.1 hk).2
  have hstop : dataStop s false (((List.range count).filter (readsByte rt bases count)).map fun k => ea + BitVec.ofNat 32 k)
      (stringParts ea ((List.range count).filter (readsByte rt bases count))) = none := dataStop_bytes_device hks
  simp only [stringLoadForm, stringBytes_eq hcount, hstop, unlessStopped_none]
  refine ⟨_, rfl, ⟨fun j q hj hq hbase => ?_, fun q hq => ?_, ?_⟩, ?_⟩
  · have hjq : stringReg rt (4 * j) = q.toNat := by
      rw [hq, stringReg, stringTarget, show 4 * j / 4 = j by omega]
    have hread : stringLoads rt (bases.map (·.toNat)) count (stringReg rt (4 * j)) = true := by
      rw [stringLoads_eq (by omega) hcount, readsByte_of_notMem (by rw [hq, show 4 * j / 4 = j by omega]) hbase]
    rw [reg_finish, reg_freeRegs fun h => hbase (mem_stringBasesFilled h).1]
    refine (getElem_writeRegs_of_mem _ q.isLt ?_ (List.mem_filter.2 ⟨List.mem_range.2 hj, hread⟩) hjq).trans
      (stringWord_device hdev hq hbase)
    refine (List.nodup_range.filter _).pairwise_of_forall_ne fun i hi k hk hne => ?_
    have hi' := List.mem_range.1 (List.mem_filter.1 hi).1
    have hk' := List.mem_range.1 (List.mem_filter.1 hk).1
    rw [stringReg, stringReg]
    omega
  · rw [reg_finish, reg_freeRegs]
    · refine getElem_writeRegs_of_ne _ q.isLt fun j hj e => hq j (List.mem_range.1 (List.mem_filter.1 hj).1) ?_
      rw [← e, stringReg, stringTarget, show 4 * j / 4 = j by omega]
    · intro hmem
      obtain ⟨-, k, hk, hkq⟩ := mem_stringBasesFilled hmem
      exact hq (k / 4) (by omega) hkq
  · exact DataFrame.finish_of_mem (.freeRegs (by exact rfl) _) (freeRegs_mem _ _) nr
  · rw [Sees, finish_hostLog, freeRegs_hostLog]
    show s.logLoads s.hostLog _ = _
    rw [stringParts_eq, logLoads_operands _ (by decide) hks]
    rfl

/-- What single bytes stored in devices leave behind. -/
theorem bytesStored_device {js : List Nat} {address : Nat → Word} (h : ∀ j ∈ js, s.allDevice true (address j) 1)
    (byte : Nat → Byte) (nr : Bool) {t : State}
    (ht : t = (s.afterStores (byteParts (js.map fun j => (address j, byte j)))).finish nr) :
    OnlyStores nr { s with hostLog := t.hostLog } t ∧ t.mem = s.mem ∧
      Sees (js.flatMap fun j => s.deviceStores (address j) 1 fun _ => (byte j).toNat) s t := by
  rw [afterStores_bytes_device byte h] at ht
  subst ht
  have hframe : DataFrame s { s with
      hostLog := (js.flatMap fun j => s.deviceStores (address j) 1 fun _ => (byte j).toNat).reverse ++ s.hostLog } := rfl
  exact ⟨hframe.onlyMoves (fun _ _ => rfl) nr, finish_mem _ nr, finish_hostLog _ nr⟩

/-- stswi and stswx to devices. -/
theorem stringStoreForm_device (hdev : ∀ k, k < count → s.allDevice true (byteAddress ea k) 1) :
    ∃ t, stringStoreForm rt ea count nr s = .next t ∧ OnlyStores nr { s with hostLog := t.hostLog } t ∧ t.mem = s.mem ∧
      Sees ((List.range count).flatMap fun k => s.deviceStores (byteAddress ea k) 1 fun _ => stringByteOf rt s k) s t := by
  have hks : ∀ k ∈ List.range count, s.allDevice true (byteAddress ea k) 1 := fun k hk => hdev k (List.mem_range.1 hk)
  have hbyte (k : Nat) : stringByteOf rt s k
      = ((s.reg (BitVec.ofNat 5 (stringReg rt k))).extractLsb' (24 - 8 * (k % 4)) 8).toNat := by
    rw [stringByteOf, ← byteOfNat_eq, stringReg, show 8 * (4 - 1 - k % 4) = 24 - 8 * (k % 4) by omega]
  have hstop : dataStop s true (byteAddresses ea count) (singleBytes (byteAddresses ea count)) = none := dataStop_bytes_device hks
  simp only [stringStoreForm, hstop, unlessStopped_none, hbyte]
  exact ⟨_, rfl, bytesStored_device hks _ nr rfl⟩

end

/-! ## lwarx, stwcx. and dcbz -/

section
variable {s : State} {r ra rb : Reg} {nr : Bool}

/-- lwarx from a device. -/
theorem lwarx_device (hal : misaligned (s.eaX ra rb) = false) (hdev : s.allDevice false (s.eaX ra rb) 4) :
    RunsTo (.lwarx r ra rb nr) s fun t =>
      t.reg r = BitVec.ofNat 32 (bigEndianNat (inOrder (s.littleData false (s.eaX ra rb))
        ((List.range 4).map (s.deviceAnswer [] (s.eaX ra rb) 4)))) ∧
      RegsKept [r] s t ∧ CrKept nr s t ∧ Sees (s.deviceLoads (s.eaX ra rb) 4) s t ∧ t = { s with
        gpr := t.gpr, cr := t.cr, reserve := true, pc := s.pc + 4, freeCount := t.freeCount, hostLog := t.hostLog } := by
  have hexec : exec (.lwarx r ra rb nr) s = execLwarx r ra rb nr s := rfl
  unfold RunsTo
  rw [hexec]
  simp only [execLwarx, alignmentStop_permitted (permitted_of_allDevice hdev) hal,
    busStop_device (operandParts_device (by decide) hdev), unlessStopped_none]
  have hframe (n : Nat) (v : Word) : DataFrame { s with reserve := true }
      (({ s.afterLoads (operandParts (s.eaX ra rb) 4) with reserve := true, freeCount := n }).setReg r v) := rfl
  obtain ⟨hcr, heq⟩ := (hframe (s.freeCount + s.loadDraws 4 (operandParts (s.eaX ra rb) 4))
    (s.memRead s.hostLog 0 (s.eaX ra rb) 4)).finish_of_mem rfl nr
  refine ⟨_, rfl, ?_, fun q hq => ?_, hcr, ?_, heq⟩
  · rw [reg_finish, reg_setReg, if_pos rfl]
    exact memRead_device [] 0 (by decide) hdev
  · rw [reg_finish, reg_setReg, if_neg fun e => hq (List.mem_singleton.2 e)]
    rfl
  · exact (finish_hostLog _ nr).trans (logLoads_operand _ (by decide) hdev)

/-- stwcx. to a device: without a reservation the device sees no store. -/
theorem stwcx_device (hal : misaligned (s.eaX ra rb) = false) (hdev : s.allDevice true (s.eaX ra rb) 4) :
    RunsTo (.stwcx r ra rb) s fun t =>
      Sees (if s.reserve then s.deviceStores (s.eaX ra rb) 4 fun k =>
        byteOfNat 4 (if s.littleData true (s.eaX ra rb) then 3 - k else k) (s.reg r).toNat else []) s t ∧
      FieldBecomes 0 (fourBits false false s.reserve (xerSo s.xer)) false s t ∧
      t = { s with cr := t.cr, reserve := false, pc := s.pc + 4, hostLog := t.hostLog } := by
  have hexec : exec (.stwcx r ra rb) s = execStwcx r ra rb s := rfl
  unfold RunsTo
  rw [hexec]
  simp only [execStwcx, alignmentStop_permitted (permitted_of_allDevice hdev) hal,
    busStop_device (operandParts_device (by decide) hdev), unlessStopped_none, memWrite_device _ (by decide) hdev]
  have hfield (b : Bool) {t : State} (ht : t.cr = withCrField s.cr 0 (fourBits false false b (xerSo s.xer))) :
      FieldBecomes 0 (fourBits false false b (xerSo s.xer)) false s t :=
    ⟨fun _ => by rw [ht, crField_withCrField, if_pos rfl], fun k hk _ => by rw [ht, crField_withCrField, if_neg hk]⟩
  cases hres : s.reserve with
  | true => exact ⟨_, rfl, rfl, hfield true rfl, rfl⟩
  | false => exact ⟨_, rfl, rfl, hfield false rfl, hres ▸ rfl⟩

/-- dcbz to a device. -/
theorem dcbz_device (hdev : ∀ k, k < 32 → s.allDevice true (blockBase (s.eaX ra rb) + BitVec.ofNat 32 k) 1)
    (hzero : ∀ real a, s.translateData true (blockBase (s.eaX ra rb)) = .real real a → a.i = false ∧ a.w = false) :
    RunsTo (.dcbz ra rb nr) s fun t => OnlyStores nr { s with hostLog := t.hostLog } t ∧ t.mem = s.mem ∧
      Sees ((List.range 32).flatMap fun k => s.deviceStores (blockBase (s.eaX ra rb) + BitVec.ofNat 32 k) 1 fun _ => 0) s t := by
  have hks : ∀ k ∈ List.range 32, s.allDevice true (byteAddress (blockBase (s.eaX ra rb)) k) 1 :=
    fun k hk => hdev k (List.mem_range.1 hk)
  have hperm : s.permitted true (blockBase (s.eaX ra rb)) = true := by
    have hfirst := permitted_byte_device (hdev 0 (by decide))
    rwa [BitVec.add_zero] at hfirst
  have hblock : s.blockRefusesZero (blockBase (s.eaX ra rb)) = false := by
    unfold State.blockRefusesZero
    split
    next real a hreal => simp [hzero real a hreal]
    all_goals rfl
  have hbus : busStop s true (singleBytes (byteAddresses (blockBase (s.eaX ra rb)) 32)) = none := busStop_bytes_device hks
  have hbytes : (byteAddresses (blockBase (s.eaX ra rb)) 32).map (fun a => (a, (0 : Byte)))
      = (List.range 32).map fun k => (byteAddress (blockBase (s.eaX ra rb)) k, 0) := List.map_map
  have hexec : exec (.dcbz ra rb nr) s = execDcbz ra rb nr s := rfl
  unfold RunsTo
  rw [hexec]
  simp only [execDcbz, translationStopAt_permitted hperm, hblock, hbus, unlessStopped_none, hbytes]
  exact ⟨_, rfl, bytesStored_device hks (fun _ => 0) nr rfl⟩

end

/-! ## Fetching -/

section
variable {s : State} {real : Word} {little : Bool}

/-- A fetch from a device that answers word loads: the device at the first byte has the whole word. -/
theorem fetch_device (hplace : s.fetchPlace = .real real little)
    (hdevice : ∃ loads stores, s.regionKind real = some (.device loads stores) ∧ 4 ∈ loads)
    (hhole : ∀ k, k < 4 → s.isHole (real + BitVec.ofNat 32 k) = false) :
    s.fetch = .ok (inOrder little ((List.range 4).map (Config.deviceByte s.hostLog real 4))) ∧
      Sees [.load real 4] s s.afterFetch := by
  obtain ⟨loads, stores, hkind, hfour⟩ := hdevice
  have hdev : s.isDevice real = true := (isDevice_iff ..).2 ⟨loads, stores, hkind⟩
  have hwidth : s.refusesWidth false 4 real = false := by
    rw [Bool.eq_false_iff, Ne, refusesWidth_iff]
    rintro ⟨loads', stores', hkind', hnot⟩
    obtain ⟨rfl, rfl⟩ : loads = loads' ∧ stores = stores' := by simpa [hkind] using hkind'
    exact hnot hfour
  have hbyte : s.fetchedByte real = Config.deviceByte s.hostLog real 4 := by
    funext k
    simp [State.fetchedByte, hdev]
  refine ⟨by rw [fetch_ok hplace hhole hwidth, hbyte], ?_⟩
  simp [Sees, State.afterFetch, hplace, hdev]

/-- A fetch whose first byte is no device's shows the host nothing. -/
theorem sees_afterFetch_storage (hplace : s.fetchPlace = .real real little) (hdevice : s.isDevice real = false) :
    Sees [] s s.afterFetch := by
  simp [Sees, State.afterFetch, hplace, hdevice]

end

/-! ## The statement -/

theorem xerTbc_eq (xer : Word) : xerTbc xer = xer.toNat % 128 := by
  simp [xerTbc, BitVec.extractLsb'_toNat]

/-- Settles O23: each kind of access by its lemma above. -/
theorem deviceAccesses : Obligations.DeviceAccesses := by
  unfold Obligations.DeviceAccesses
  intro s r ra rb d nb nr
  have himm : stringCount nb ≤ 128 := by
    have := nb.isLt
    unfold stringCount
    split <;> omega
  have hxer : s.xer.toNat % 128 ≤ 128 := (Nat.mod_lt _ (by decide)).le
  have hlswx : exec (.lswx r ra rb nr) s = stringLoadForm r [ra, rb] (s.eaX ra rb) (s.xer.toNat % 128) nr s := by
    rw [← xerTbc_eq]
    rfl
  have hstswx : exec (.stswx r ra rb nr) s = stringStoreForm r (s.eaX ra rb) (s.xer.toNat % 128) nr s := by
    rw [← xerTbc_eq]
    rfl
  refine ⟨fun l hl ea href hdev => scalarLoad_device hl href hdev, fun l hl ea href hdev => scalarStore_device hl href hdev,
    ⟨lmw_device, stmw_device⟩, ⟨?lswi, ?lswx, ?stswi, ?stswx⟩, lwarx_device, stwcx_device, dcbz_device,
    fun real little => fetch_device,
    fun real little hplace hdev hhole => ⟨fetch_storage hplace hhole hdev, sees_afterFetch_storage hplace hdev⟩⟩
  case lswi => exact stringLoadForm_device (bases := [ra]) himm
  case lswx =>
    intro hdev
    rw [RunsTo, hlswx]
    exact stringLoadForm_device hxer hdev
  case stswi => exact stringStoreForm_device
  case stswx =>
    intro hdev
    rw [RunsTo, hstswx]
    exact stringStoreForm_device hdev

end Sys2Proof.Proofs
end

section
/-! PROOF. Decoding and encoding (30_encoding.md R200 to R211), and what the encodings outside the core do (R245,
60_exceptions.md R640 to R642). -/
namespace Sys2Proof.Proofs
open Sys2Proof Sys2Proof.Machine Sys2Proof.Laws

/-! ## The round trip -/

/-- The round trips of the constructors, in the order of `Instr`. -/
theorem decodeWord_encodeWord (i : Instr) : decodeWord (encodeWord i) = .ok i :=
  i.casesOn (motive := RoundTrip.Statement)
    RoundTrip.lbz RoundTrip.lbzu RoundTrip.lbzux RoundTrip.lbzx RoundTrip.lha RoundTrip.lhau RoundTrip.lhaux RoundTrip.lhax
    RoundTrip.lhz RoundTrip.lhzu RoundTrip.lhzux RoundTrip.lhzx RoundTrip.lwz RoundTrip.lwzu RoundTrip.lwzux RoundTrip.lwzx
    RoundTrip.stb RoundTrip.stbu RoundTrip.stbux RoundTrip.stbx RoundTrip.sth RoundTrip.sthu RoundTrip.sthux RoundTrip.sthx
    RoundTrip.stw RoundTrip.stwu RoundTrip.stwux RoundTrip.stwx RoundTrip.lhbrx RoundTrip.lwbrx RoundTrip.sthbrx
    RoundTrip.stwbrx
    RoundTrip.lmw RoundTrip.stmw RoundTrip.lswi RoundTrip.lswx RoundTrip.stswi RoundTrip.stswx RoundTrip.lwarx RoundTrip.stwcx
    RoundTrip.add RoundTrip.addc RoundTrip.adde RoundTrip.addi RoundTrip.addic RoundTrip.addicRc RoundTrip.addis
    RoundTrip.addme RoundTrip.addze RoundTrip.divw RoundTrip.divwu RoundTrip.mulhw RoundTrip.mulhwu RoundTrip.mulli
    RoundTrip.mullw RoundTrip.neg RoundTrip.subf RoundTrip.subfc RoundTrip.subfe RoundTrip.subfic RoundTrip.subfme
    RoundTrip.subfze
    RoundTrip.macchw RoundTrip.macchws RoundTrip.macchwsu RoundTrip.macchwu RoundTrip.machhw RoundTrip.machhws
    RoundTrip.machhwsu RoundTrip.machhwu RoundTrip.maclhw RoundTrip.maclhws RoundTrip.maclhwsu RoundTrip.maclhwu
    RoundTrip.nmacchw RoundTrip.nmacchws RoundTrip.nmachhw RoundTrip.nmachhws RoundTrip.nmaclhw RoundTrip.nmaclhws
    RoundTrip.mulchw RoundTrip.mulchwu RoundTrip.mulhhw RoundTrip.mulhhwu RoundTrip.mullhw RoundTrip.mullhwu
    RoundTrip.and RoundTrip.andc RoundTrip.andi RoundTrip.andis RoundTrip.cntlzw RoundTrip.eqv RoundTrip.extsb RoundTrip.extsh
    RoundTrip.nand RoundTrip.nor RoundTrip.or RoundTrip.orc RoundTrip.ori RoundTrip.oris RoundTrip.xor RoundTrip.xori
    RoundTrip.xoris RoundTrip.cmp RoundTrip.cmpi RoundTrip.cmpl RoundTrip.cmpli
    RoundTrip.b RoundTrip.bc RoundTrip.bcctr RoundTrip.bclr RoundTrip.crand RoundTrip.crandc RoundTrip.creqv RoundTrip.crnand
    RoundTrip.crnor RoundTrip.cror RoundTrip.crorc RoundTrip.crxor RoundTrip.mcrf
    RoundTrip.rlwimi RoundTrip.rlwinm RoundTrip.rlwnm RoundTrip.slw RoundTrip.sraw RoundTrip.srawi RoundTrip.srw
    RoundTrip.dcba RoundTrip.dcbf RoundTrip.dcbi RoundTrip.dcbst RoundTrip.dcbt RoundTrip.dcbtst RoundTrip.dcbz
    RoundTrip.dccci RoundTrip.dcread RoundTrip.icbi RoundTrip.icbt RoundTrip.iccci RoundTrip.icread
    RoundTrip.mfmsr RoundTrip.mtmsr RoundTrip.rfci RoundTrip.rfi RoundTrip.wrtee RoundTrip.wrteei RoundTrip.tlbia
    RoundTrip.tlbre RoundTrip.tlbsync RoundTrip.tlbsx RoundTrip.tlbwe
    RoundTrip.eieio RoundTrip.isync RoundTrip.mcrxr RoundTrip.mfcr RoundTrip.mfdcr RoundTrip.mtcrf RoundTrip.mtdcr
    RoundTrip.sync RoundTrip.mfspr RoundTrip.mftb RoundTrip.mtspr RoundTrip.sc RoundTrip.tw RoundTrip.twi

/-- Settles O1: the first four bytes are those of the instruction's word, which decodes to it. -/
theorem decodeAfterEncode : Obligations.DecodeAfterEncode := by
  unfold Obligations.DecodeAfterEncode
  intro i rest
  calc decode (encode i ++ rest)
    _ = (decodeWord (encodeWord i)).map fun i => (i, rest) := decode_bytesOfWord (encodeWord i) rest
    _ = .ok (i, rest) := by rw [decodeWord_encodeWord]; rfl

/-! ## Words that name no instruction -/

/-- A table without a row for the number finds none. -/
theorem findRow_eq_none_of_notMem {k : Nat} {table : List (Nat × (Word → Instr))} (h : k ∉ table.map Prod.fst) :
    findRow k table = none := by
  induction table with
  | nil => rfl
  | cons row table ih =>
    obtain ⟨hrow, htable⟩ : k ≠ row.1 ∧ k ∉ table.map Prod.fst := by simpa using h
    rw [findRow, if_neg hrow.symm, ih htable]

/-- A primary opcode without a row and without extended opcodes is a floating-point one or illegal (R211). -/
theorem decodeWord_outside {w : Word} (hrow : (opcd w).toNat ∉ primaryTable.map Prod.fst)
    (hgroup : (opcd w).toNat ∉ [4, 17, 19, 31]) :
    decodeWord w = .error (if (opcd w).toNat ∈ floatingPrimary then .floatingPoint (opcd w).toNat (xo10 w).toNat
      else .illegalPrimary (opcd w).toNat) := by
  obtain ⟨h4, h17, h19, h31⟩ : (opcd w).toNat ≠ 4 ∧ (opcd w).toNat ≠ 17 ∧ (opcd w).toNat ≠ 19 ∧ (opcd w).toNat ≠ 31 := by
    simpa using hgroup
  rw [decodeWord, findRow_eq_none_of_notMem hrow]
  simp only [h4, h17, h19, h31, if_false]
  split <;> rfl

/-- The numbers of the illegal primary opcodes (R211). -/
def illegalPrimary : List Nat := [0, 1, 2, 5, 6, 9, 22, 30, 56, 57, 58, 60, 61, 62]

theorem illegalPrimary_outside :
    ∀ o ∈ illegalPrimary, o ∉ primaryTable.map Prod.fst ∧ o ∉ [4, 17, 19, 31] ∧ o ∉ floatingPrimary := by decide

theorem floatingPrimary_outside : ∀ o ∈ floatingPrimary, o ∉ primaryTable.map Prod.fst ∧ o ∉ [4, 17, 19, 31] := by decide

theorem decodeWord_illegalPrimary {w : Word} (h : (opcd w).toNat ∈ illegalPrimary) :
    decodeWord w = .error (.illegalPrimary (opcd w).toNat) := by
  obtain ⟨hrow, hgroup, hfloating⟩ := illegalPrimary_outside _ h
  rw [decodeWord_outside hrow hgroup, if_neg hfloating]

theorem decodeWord_floatingPrimary {w : Word} (h : (opcd w).toNat ∈ floatingPrimary) :
    decodeWord w = .error (.floatingPoint (opcd w).toNat (xo10 w).toNat) := by
  obtain ⟨hrow, hgroup⟩ := floatingPrimary_outside _ h
  rw [decodeWord_outside hrow hgroup, if_pos h]

/-! ## The step that meets such a word -/

/-- A fetch changes nothing but the host's log. -/
theorem afterFetch_eq_log (s : State) : ∃ log, s.afterFetch = { s with hostLog := log } := by
  unfold State.afterFetch
  split
  · split
    · exact ⟨_, rfl⟩
    · exact ⟨_, rfl⟩
  · exact ⟨_, rfl⟩

section
variable {s u t : State}

theorem boundary_eq_executeNext {input : HostInput} (hdebug : u.debugRefusal = none) (hpending : pendingInterrupts input u = [])
    (hwait : u.weBit = false) : boundary input u = executeNext u := by
  simp [boundary, hdebug, hpending, hwait]

theorem step_of_reachesFetch (h : ReachesFetch s u) : step s = executeNext u := by
  obtain ⟨hreset, hu, hdebug, hpending, hwait, -⟩ := h
  rw [step, hreset, ← boundary_eq_executeNext hdebug hpending hwait, hu]

theorem internalDebug_eq_false (h : t.idmBit = false) : t.internalDebug = false := by simp [State.internalDebug, h]

/-- Outside internal debug mode an interrupt records no exception event. -/
theorem recordException_of_idmOff (h : t.idmBit = false) : recordException t = t := by
  unfold recordException
  split
  · rfl
  · simp [internalDebug_eq_false h]

/-- Outside internal debug mode a word that does not decode is rejected in the state after its fetch. -/
theorem executeNext_decodeError {bytes : List Byte} {e : DecodeError} (hidm : u.idmBit = false) (hfetch : u.fetch = .ok bytes)
    (hdecode : decode bytes = .error e) : executeNext u = tookInterrupt (rejected e u.afterFetch) := by
  simp [executeNext, beforeInstruction, internalDebug_eq_false hidm, hfetch, hdecode]

/-- The step that rejects a word with an interrupt ends with that interrupt. -/
theorem step_rejected {bytes : List Byte} {e : DecodeError} (h : ReachesFetch s u) (hfetch : u.fetch = .ok bytes)
    (hdecode : decode bytes = .error e) (hrejected : rejected e u.afterFetch = .next t) (hdbcr0 : t.dbcr0 = u.dbcr0) :
    step s = .next t := by
  have ⟨_, _, _, _, _, hidm⟩ := h
  have hidm' : t.idmBit = false := by rwa [State.idmBit, hdbcr0]
  rw [step_of_reachesFetch h, executeNext_decodeError hidm hfetch hdecode, hrejected, tookInterrupt,
    recordException_of_idmOff hidm']

end

/-- Without the unit that claims the word, the Program interrupt is taken (R640 to R642). -/
theorem rejected_illegal {e : DecodeError} {v : State} (hfpu : ∀ o x, e = .floatingPoint o x → v.fpuPresent = false)
    (hapu : ∀ x, e = .auxiliary x → v.apuPresent = false) : rejected e v = .next (programInterrupt .illegal v) := by
  cases e with
  | truncated | illegalPrimary | illegalExtended => rfl
  | floatingPoint o x => simp [rejected, hfpu o x rfl]
  | auxiliary x => simp [rejected, hapu x rfl]

theorem rejected_fpuUnavailable {v : State} (o x : Nat) (hpresent : v.fpuPresent = true) (hoff : v.fpBit = false) :
    rejected (.floatingPoint o x) v = .next (takeInterrupt .fpuUnavailable v.pc v) := by
  simp [rejected, hpresent, hoff]

theorem rejected_apuUnavailable {v : State} (x : Nat) (hpresent : v.apuPresent = true) (hoff : v.apBit = false) :
    rejected (.auxiliary x) v = .next (takeInterrupt .apuUnavailable v.pc v) := by
  simp [rejected, hpresent, hoff]

/-- Settles O3: the primary opcodes by their tables, and the step by what `rejected` does in the state after the fetch, which has
the fields of the state before it but for the host's log. -/
theorem encodingsOutsideTheCoreTrap : Obligations.EncodingsOutsideTheCoreTrap := by
  unfold Obligations.EncodingsOutsideTheCoreTrap
  refine ⟨fun w => decodeWord_illegalPrimary, fun w => decodeWord_floatingPrimary, ?_⟩
  intro s u bytes e hreach hfetch hdecode
  obtain ⟨log, hlog⟩ := afterFetch_eq_log u
  have hstep {t : State} (hrejected : rejected e { u with hostLog := log } = .next t) : t.dbcr0 = u.dbcr0 → step s = .next t :=
    step_rejected hreach hfetch hdecode (hlog ▸ hrejected)
  rw [hlog]
  refine ⟨fun hfpu hapu => ?program, ?fpu, ?apu⟩
  case program =>
    obtain ⟨htakes, hsyndrome⟩ := programInterrupt_takes .illegal { u with hostLog := log }
    exact ⟨_, hstep (rejected_illegal hfpu hapu) (takeInterrupt_dbcr0 ..), htakes, hsyndrome, takeInterrupt_dear ..⟩
  case fpu =>
    rintro o x rfl hpresent hoff
    exact ⟨_, hstep (rejected_fpuUnavailable o x hpresent hoff) (takeInterrupt_dbcr0 ..), takes_takeInterrupt ..,
      takeInterrupt_esr .., takeInterrupt_dear .., takeInterrupt_dbsr ..⟩
  case apu =>
    rintro x rfl hpresent hoff
    exact ⟨_, hstep (rejected_apuUnavailable x hpresent hoff) (takeInterrupt_dbcr0 ..), takes_takeInterrupt ..,
      takeInterrupt_esr .., takeInterrupt_dear .., takeInterrupt_dbsr ..⟩

end Sys2Proof.Proofs
end

section
/-! PROOF. The words of the examples of spec/, read as rows of the opcode table (30_encoding.md R200 to R211). -/
namespace Sys2Proof.Proofs
open Sys2Proof Sys2Proof.Machine Sys2Proof.Laws

/-- A table word of all 32 bits decodes as the word it numbers. -/
theorem decodeTableWord_toNat (w : Word) : decodeTableWord 32 w.toNat = (decodeWord w).toOption := by
  have hword : BitVec.ofNat 32 (w.toNat % 2 ^ 32) = w := by rw [Nat.mod_eq_of_lt w.isLt, BitVec.ofNat_toNat, BitVec.setWidth_eq]
  have hdecode : decode (bytesOfWord w) = (decodeWord w).map fun i => (i, []) := by
    simpa using decode_bytesOfWord w []
  rw [decodeTableWord, hword, hdecode]
  cases decodeWord w <;> rfl

/-- The number of an instruction's word decodes to the instruction. -/
theorem decodeTableWord_of_encodeWord {n : Nat} {i : Instr} (hn : (encodeWord i).toNat = n) :
    decodeTableWord 32 n = some i := by
  rw [← hn, decodeTableWord_toNat, decodeWord_encodeWord]
  rfl

/-- Settles O2: each number is that of its instruction's word, which the round trip decodes. -/
theorem wordsDecodeAsEncoded : Obligations.WordsDecodeAsEncoded := by
  unfold Obligations.WordsDecodeAsEncoded
  and_intros
  all_goals exact decodeTableWord_of_encodeWord (by decide)

end Sys2Proof.Proofs
end

section
/-! PROOF. The multiple and string instructions (41_storage_multiple_string_sync.md R311 to R316): what each leaves when nothing
stops its access, then for accessible operands. -/
namespace Sys2Proof.Proofs
open Sys2Proof Sys2Proof.Machine Sys2Proof.Laws

/-! ## lmw -/

theorem byteAddress_wordAt (ea : Word) (j b : Nat) : wordAt ea j + BitVec.ofNat 32 b = byteAddress ea (4 * j + b) := by
  rw [wordAt, byteAddress, BitVec.add_assoc, ← BitVec.ofNat_add]

/-- The host's log when lmw comes to its j-th word. -/
def logBeforeWord (s : State) (rt ra : Reg) (ea : Word) (j : Nat) : List HostAccess :=
  s.logLoads s.hostLog (wordsParts ((loadedWords rt ra ea).filter (·.1 < rt.toNat + j)))

section
variable {s : State} {r ra : Reg} {d : BitVec 16} {ea : Word} {f : Nat → Byte}

/-- A word of lmw is composed of the bytes that its load reads. -/
theorem multipleWord_eq {j : Nat} (hbytes : ∀ b, b < 4 →
      s.loadByte (logBeforeWord s r ra ea j) (4 * j + b) (wordAt ea j) 4 b = f (4 * j + b)) :
    s.multipleWord r (loadedWords r ra ea) (r.toNat + j, wordAt ea j) = BitVec.ofNat 32 (bigEndianNat
      (inOrder (s.littleData false (wordAt ea j)) ((List.range 4).map fun b => f (4 * j + b)))) := by
  have hlist : ((List.range 4).map fun b => s.loadByte (logBeforeWord s r ra ea j) (4 * j + b) (wordAt ea j) 4 b)
      = (List.range 4).map fun b => f (4 * j + b) := List.map_congr_left fun b hb => hbytes b (List.mem_range.1 hb)
  have hlen : (inOrder (s.littleData false (wordAt ea j)) ((List.range 4).map fun b => f (4 * j + b))).length = 4 := by
    unfold inOrder
    split <;> simp
  rw [← wordOfByteList_eq _ hlen.le, ← hlist, State.multipleWord, State.memRead, Nat.add_sub_cancel_left]
  rfl

/-- An lmw that nothing stops: the bytes of its registers are those that its loads read. -/
theorem lmw_runs
    (hstop : dataStop s false (wordsBytes (loadedWords r ra (s.eaD ra d))) (wordsParts (loadedWords r ra (s.eaD ra d))) = none)
    (hbytes : ∀ j, j < 32 - r.toNat → readsWord r ra j = true → ∀ b, b < 4 →
      s.loadByte (logBeforeWord s r ra (s.eaD ra d) j) (4 * j + b) (wordAt (s.eaD ra d) j) 4 b = f (4 * j + b)) :
    RunsTo (.lmw r ra d) s fun t => LoadsMultiple r ra (s.eaD ra d) f s t ∧
      t.hostLog = s.logLoads s.hostLog (wordsParts (loadedWords r ra (s.eaD ra d))) := by
  have hexec : exec (.lmw r ra d) s = execLmw r ra d s := rfl
  unfold RunsTo
  rw [hexec]
  simp only [execLmw, hstop, unlessStopped_none, loadedWords_map]
  refine ⟨_, rfl, ⟨fun q hrq hne => ?loaded, fun q hq => ?kept, ?frame⟩, ?log⟩
  case loaded =>
    have hrq' : r.toNat ≤ q.toNat := hrq
    have hq : r.toNat + (q.toNat - r.toNat) = q.toNat := by omega
    have hj : q.toNat - r.toNat < 32 - r.toNat := by omega
    have hread : readsWord r ra (q.toNat - r.toNat) = true := by
      have : q.toNat ≠ ra.toNat := fun e => hne (BitVec.eq_of_toNat_eq e)
      simp [readsWord, hq, this]
    have hdistinct : ((List.range (32 - r.toNat)).filter (readsWord r ra)).Pairwise fun i k => r.toNat + i ≠ r.toNat + k :=
      (List.pairwise_lt_range.filter _).imp fun {i k} hik => by omega
    rw [reg_advance, reg_freeRegs (by split <;> simp [hne])]
    exact (getElem_writeRegs_of_mem _ q.isLt hdistinct (List.mem_filter.2 ⟨List.mem_range.2 hj, hread⟩) hq).trans
      (multipleWord_eq (hbytes _ hj hread))
  case kept =>
    have hq' : q.toNat < r.toNat := hq
    have hbase : q ∉ if r ≤ ra then [ra] else [] := by
      split
      · rename_i hrra
        have hrra' : r.toNat ≤ ra.toNat := hrra
        simp only [List.mem_singleton]
        rintro rfl
        omega
      · exact List.not_mem_nil
    rw [reg_advance, reg_freeRegs hbase]
    exact getElem_writeRegs_of_ne _ q.isLt fun j _ => by omega
  case frame =>
    rw [freeRegs_eq]
    rfl
  case log =>
    rw [advance_hostLog, freeRegs_hostLog]
    rfl

/-- The words of accessible bytes are accessible. -/
theorem wordsBytes_accessible {store : Bool} {js : List Nat} {register : Nat → Nat} {address : Nat → Word}
    (h : ∀ j ∈ js, s.allAccessible store (byteAddresses (address j) 4) = true) :
    s.allAccessible store (wordsBytes (js.map fun j => (register j, address j))) = true := by
  rw [State.allAccessible, List.all_eq_true]
  intro a ha
  obtain ⟨p, hp, ha⟩ := List.mem_flatMap.1 ha
  obtain ⟨j, hj, rfl⟩ := List.mem_map.1 hp
  exact mem_of_allAccessible (h j hj) a ha

/-- Nothing stops the access to accessible words. -/
theorem dataStop_words {store : Bool} {js : List Nat} {register : Nat → Nat} {address : Nat → Word}
    (h : ∀ j ∈ js, s.allAccessible store (byteAddresses (address j) 4) = true) :
    dataStop s store (wordsBytes (js.map fun j => (register j, address j)))
      (wordsParts (js.map fun j => (register j, address j))) = none := by
  refine dataStop_none (wordsBytes_accessible h) fun p hp => ?_
  rw [wordsParts_map] at hp
  obtain ⟨j, hj, hp⟩ := List.mem_flatMap.1 hp
  exact operandParts_partFails (h j hj) p hp

/-- lmw of accessible words. -/
theorem lmw_accessible (hacc : ∀ j, j < 32 - r.toNat → readsWord r ra j = true →
      s.allAccessible false (byteAddresses (wordAt (s.eaD ra d) j) 4) = true) :
    RunsTo (.lmw r ra d) s fun t =>
      LoadsMultiple r ra (s.eaD ra d) (fun k => s.byteAt false (byteAddress (s.eaD ra d) k)) s t ∧ t.hostLog = s.hostLog := by
  have hjs : ∀ j ∈ (List.range (32 - r.toNat)).filter (readsWord r ra),
      s.allAccessible false (byteAddresses (wordAt (s.eaD ra d) j) 4) = true :=
    fun j hj => hacc j (List.mem_range.1 (List.mem_filter.1 hj).1) (List.mem_filter.1 hj).2
  obtain ⟨t, ht, hloads, hlog⟩ := lmw_runs (f := fun k => s.byteAt false (byteAddress (s.eaD ra d) k))
    (by rw [loadedWords_eq]; exact dataStop_words hjs)
    fun j hj hread b hb => by rw [loadByte_accessible _ _ hb (hacc j hj hread), byteAddress_wordAt]
  rw [logLoads_accessible] at hlog
  · exact ⟨t, ht, hloads, hlog⟩
  · intro p hp
    rw [loadedWords_eq, wordsParts_map] at hp
    obtain ⟨j, hj, hp⟩ := List.mem_flatMap.1 hp
    exact operandParts_accessible (by decide) (hjs j hj) p hp

end

/-! ## Bytes stored one after the other -/

section
variable {s : State} {ea : Word} {count : Nat} {byte : Nat → Byte}

/-- What bytes stored at accessible consecutive addresses leave: they do not overlap, as translation keeps the ten low-order bits
of an address. -/
theorem storeBytes_consecutive (hm : Memory.wf s.mem = true) (hcount : count ≤ 1024)
    (hacc : s.allAccessible true (byteAddresses ea count) = true) {t : State}
    (ht : t.mem = s.storeBytes ((List.range count).map fun k => (byteAddress ea k, byte k))) :
    (∀ k, k < count → Memory.read t.mem (s.realData true (byteAddress ea k)).toNat = byte k) ∧ KeptOutside ea count s t := by
  refine ⟨fun k hk => ?stored, fun a ha => ?kept⟩
  case stored =>
    rw [ht]
    refine read_storeBytes_mem hm ?_ ?_ (byteAddress ea k, byte k) (List.mem_map.2 ⟨k, List.mem_range.2 hk, rfl⟩)
    · exact List.forall_mem_map.2 fun i hi => mem_of_allAccessible hacc _ (mem_byteAddresses (List.mem_range.1 hi))
    · refine List.pairwise_map.2 (List.nodup_range.pairwise_of_forall_ne fun i hi j hj hij => ?_)
      have hi' := List.mem_range.1 hi
      have hj' := List.mem_range.1 hj
      exact realData_ne s true ea (by omega) (by omega) hij
  case kept =>
    rw [ht]
    exact read_storeBytes_other (List.forall_mem_map.2 fun k hk => ha k (List.mem_range.1 hk))

end

/-! ## stmw -/

theorem multipleByte_lt (rs : Reg) (ea : Word) (s : State) (k : Nat) : multipleByte rs ea s k < 256 :=
  Nat.mod_lt _ (by decide)

/-- Groups of four, one after the other. -/
theorem flatMap_range_four {α : Type} (g : Nat → α) (n : Nat) :
    ((List.range n).flatMap fun j => (List.range 4).map fun b => g (4 * j + b)) = (List.range (4 * n)).map g := by
  induction n with
  | zero => rfl
  | succ n ih =>
    rw [List.range_succ (n := n), List.flatMap_append, ih, Nat.mul_succ, List.range_add, List.map_append, List.map_map,
      List.flatMap_singleton]
    rfl

section
variable {s : State} {r ra : Reg} {d : BitVec 16} {ea : Word}

/-- The single stores of an accessible operand start at its bytes. -/
theorem operandStores_accessible {n : Nat} (v : Word) (hn : 0 < n) (h : s.allAccessible true (byteAddresses ea n) = true) :
    ∀ part ∈ s.operandStores ea n v, s.accessible true part.1 = true := by
  intro part hpart
  refine mem_of_allAccessible h _ ?_
  unfold State.operandStores at hpart
  split at hpart
  · obtain rfl := List.mem_singleton.1 hpart
    simpa using mem_byteAddresses (ea := ea) hn
  · obtain ⟨p, hp, rfl⟩ := List.mem_map.1 hpart
    exact operandBytes_address hp

/-- An accessible operand goes to storage whole. -/
theorem storageBytes_operandStores {n : Nat} (v : Word) (hn : 0 < n) (h : s.allAccessible true (byteAddresses ea n) = true) :
    (s.operandStores ea n v).flatMap s.storageBytes = s.operandBytes ea n v := by
  have hacc := mem_of_allAccessible h
  unfold State.operandStores
  split
  · rw [List.flatMap_singleton, storageBytes_accessible (orderedBytes_length s ea n v) _ hacc]
    · rfl
    · simpa using hacc _ (mem_byteAddresses hn)
  · exact storageBytes_byteParts fun p hp => hacc _ (operandBytes_address hp)

/-- Accessible operands stored one after the other reach storage only. -/
theorem afterStores_operands_accessible {js : List Nat} {address value : Nat → Word} {n : Nat} (hn : 0 < n)
    (h : ∀ j ∈ js, s.allAccessible true (byteAddresses (address j) n) = true) :
    s.afterStores (js.flatMap fun j => s.operandStores (address j) n (value j)) =
      { s with mem := s.storeBytes (js.flatMap fun j => s.operandBytes (address j) n (value j)) } := by
  have hlog := logStores_accessible s.hostLog (parts := js.flatMap fun j => s.operandStores (address j) n (value j))
    fun part hpart => by
      obtain ⟨j, hj, hpart⟩ := List.mem_flatMap.1 hpart
      exact operandStores_accessible _ hn (h j hj) part hpart
  have hbytes : (js.flatMap fun j => s.operandStores (address j) n (value j)).flatMap s.storageBytes
      = js.flatMap fun j => s.operandBytes (address j) n (value j) := by
    rw [List.flatMap_assoc]
    exact List.flatMap_congr fun j hj => storageBytes_operandStores _ hn (h j hj)
  rw [State.afterStores, hlog, hbytes]

/-- The bytes of one word of stmw. -/
theorem operandBytes_wordAt (s : State) (r : Reg) (ea : Word) (j : Nat) :
    s.operandBytes (wordAt ea j) 4 (s.reg (BitVec.ofNat 5 (r.toNat + j))) =
      (List.range 4).map fun b => (byteAddress ea (4 * j + b), BitVec.ofNat 8 (multipleByte r ea s (4 * j + b))) := by
  rw [State.operandBytes, orderedBytes_eq, byteAddresses, List.zip_map']
  refine List.map_congr_left fun b hb => ?_
  have hb' := List.mem_range.1 hb
  rw [byteAddress_wordAt, multipleByte, show (4 * j + b) / 4 = j by omega, show (4 * j + b) % 4 = b by omega]
  rfl

/-- stmw to accessible words: storage takes the bytes of its registers one after the other. -/
theorem stmw_accessible (hacc : ∀ j, j < 32 - r.toNat → s.allAccessible true (byteAddresses (wordAt (s.eaD ra d) j) 4) = true) :
    RunsTo (.stmw r ra d) s fun t => t = { s with mem := t.mem, pc := s.pc + 4 } ∧
      t.mem = s.storeBytes ((List.range (4 * (32 - r.toNat))).map
        fun k => (byteAddress (s.eaD ra d) k, BitVec.ofNat 8 (multipleByte r (s.eaD ra d) s k))) := by
  have hjs : ∀ j ∈ List.range (32 - r.toNat), s.allAccessible true (byteAddresses (wordAt (s.eaD ra d) j) 4) = true :=
    fun j hj => hacc j (List.mem_range.1 hj)
  have hwords : multipleWords r (s.eaD ra d) = (List.range (32 - r.toNat)).map fun j => (r.toNat + j, wordAt (s.eaD ra d) j) := rfl
  have hexec : exec (.stmw r ra d) s = execStmw r ra d s := rfl
  unfold RunsTo
  rw [hexec, ← flatMap_range_four fun k => (byteAddress (s.eaD ra d) k, BitVec.ofNat 8 (multipleByte r (s.eaD ra d) s k))]
  simp only [← operandBytes_wordAt, execStmw, hwords, dataStop_words hjs, unlessStopped_none, List.flatMap_map]
  rw [afterStores_operands_accessible (by decide) hjs]
  exact ⟨_, rfl, rfl, rfl⟩

/-- The bytes of accessible words are accessible. -/
theorem allAccessible_of_words {store : Bool} {n : Nat}
    (hacc : ∀ j, j < n → s.allAccessible store (byteAddresses (wordAt ea j) 4) = true) :
    s.allAccessible store (byteAddresses ea (4 * n)) = true := by
  rw [State.allAccessible, List.all_eq_true]
  intro a ha
  obtain ⟨k, hk, rfl⟩ := List.mem_map.1 ha
  have hk' := List.mem_range.1 hk
  have hbyte := mem_of_allAccessible (hacc (k / 4) (by omega)) _ (mem_byteAddresses (Nat.mod_lt k (by decide : 0 < 4)))
  rwa [byteAddress_wordAt, Nat.div_add_mod] at hbyte

/-- Byte b of register q among the bytes of stmw. -/
theorem multipleByte_reg {q : Reg} (hq : r ≤ q) {b : Nat} (hb : b < 4) : multipleByte r ea s (4 * (q.toNat - r.toNat) + b) =
    byteOfNat 4 (if s.littleData true (wordAt ea (q.toNat - r.toNat)) then 4 - 1 - b else b) (s.reg q).toNat := by
  have hq' : r.toNat ≤ q.toNat := hq
  have hreg : BitVec.ofNat 5 (r.toNat + (q.toNat - r.toNat)) = q := by
    rw [Nat.add_sub_cancel' hq', BitVec.ofNat_toNat, BitVec.setWidth_eq]
  rw [multipleByte, show (4 * (q.toNat - r.toNat) + b) / 4 = q.toNat - r.toNat by omega,
    show (4 * (q.toNat - r.toNat) + b) % 4 = b by omega, hreg]
  rfl

end

/-- Settles O15: the words by their numbers j from 0, register RT + j. -/
theorem multiplesMoveConsecutiveWords : Obligations.MultiplesMoveConsecutiveWords := by
  unfold Obligations.MultiplesMoveConsecutiveWords
  intro s r ra d word
  have hword {j : Nat} (hj : j < 32 - r.toNat) : ∃ q : Reg, r ≤ q ∧ q.toNat = r.toNat + j ∧ word q = wordAt (s.eaD ra d) j := by
    have hq : (BitVec.ofNat 5 (r.toNat + j)).toNat = r.toNat + j := by
      rw [BitVec.toNat_ofNat]
      omega
    refine ⟨BitVec.ofNat 5 (r.toNat + j), ?_, hq, ?_⟩
    · rw [BitVec.le_def, hq]
      omega
    · simp only [word, hq, Nat.add_sub_cancel_left]
      rfl
  refine ⟨fun hacc => lmw_accessible fun j hj hread => ?lmw, fun hm hacc => ?stmw⟩
  case lmw =>
    obtain ⟨q, hrq, hq, hwq⟩ := hword hj
    rw [← hwq]
    refine hacc q hrq ?_
    simp only [readsWord, ← hq, Bool.or_eq_true, decide_eq_true_eq] at hread
    exact hread.imp (fun hne e => hne (congrArg BitVec.toNat e)) fun he => BitVec.eq_of_toNat_eq he
  case stmw =>
    have hjs : ∀ j, j < 32 - r.toNat → s.allAccessible true (byteAddresses (wordAt (s.eaD ra d) j) 4) = true := fun j hj => by
      obtain ⟨q, hrq, -, hwq⟩ := hword hj
      exact hwq ▸ hacc q hrq
    obtain ⟨t, ht, hframe, hmem⟩ := stmw_accessible hjs
    obtain ⟨hstored, hkept⟩ := storeBytes_consecutive hm (by omega) (allAccessible_of_words hjs) hmem
    refine ⟨t, ht, fun q hrq b hb => ?_, hkept, hframe⟩
    have hrq' : r.toNat ≤ q.toNat := hrq
    have hwq : word q = wordAt (s.eaD ra d) (q.toNat - r.toNat) := rfl
    rw [hwq, byteAddress_wordAt, ← multipleByte_reg hrq hb, hstored _ (by omega), BitVec.toNat_ofNat]
    exact Nat.mod_eq_of_lt (multipleByte_lt ..)

/-! ## String instructions -/

section
variable {s : State} {rt : Reg} {bases : List Reg} {ea : Word} {count : Nat} {nr : Bool} {f : Nat → Byte}

/-- A register that a string load fills with the bytes its loads read. -/
theorem stringWord_eq {ks : List Nat} {j : Nat}
    (hbytes : ∀ b, b < 4 → 4 * j + b < count → s.stringByte ea ks (4 * j + b) = f (4 * j + b)) :
    s.stringWord ea ks count j = BitVec.ofNat 32 (bigEndianNat
      ((List.range 4).map fun b => if 4 * j + b < count then f (4 * j + b) else 0)) := by
  rw [State.stringWord, wordOfByteList_eq _ (by simp)]
  congr 2
  refine List.map_congr_left fun b hb => ?_
  split
  · exact hbytes b (List.mem_range.1 hb) ‹_›
  · rfl

/-- The registers that a string load of at most 128 bytes fills are distinct. -/
theorem stringRegs_pairwise (hcount : count ≤ 128) (reads : Nat → Bool) : ((List.range ((count + 3) / 4)).filter reads).Pairwise
    fun i k => stringReg rt (4 * i) ≠ stringReg rt (4 * k) := by
  refine (List.nodup_range.filter _).pairwise_of_forall_ne fun i hi k hk hne => ?_
  have hi' := List.mem_range.1 (List.mem_filter.1 hi).1
  have hk' := List.mem_range.1 (List.mem_filter.1 hk).1
  rw [stringReg, stringReg]
  omega

/-- The first byte of the j-th register of a string is that register's. -/
theorem stringReg_four_mul (rt : Reg) (j : Nat) : stringReg rt (4 * j) = stringTarget rt j := by
  rw [stringReg, stringTarget, show 4 * j / 4 = j by omega]

/-- A string load that nothing stops: the bytes of its registers are those that its loads read. -/
theorem stringLoadForm_runs (hcount : count ≤ 128)
    (hstop : dataStop s false (((List.range count).filter (readsByte rt bases count)).map (byteAddress ea))
      (stringParts ea ((List.range count).filter (readsByte rt bases count))) = none)
    (hbytes : ∀ k, k < count → readsByte rt bases count k = true →
      s.stringByte ea ((List.range count).filter (readsByte rt bases count)) k = f k) :
    ∃ t, stringLoadForm rt bases ea count nr s = .next t ∧ FillsRegisters rt bases count nr f s t ∧
      t.hostLog = s.logLoads s.hostLog (stringParts ea ((List.range count).filter (readsByte rt bases count))) := by
  unfold byteAddress at hstop
  simp only [stringLoadForm, stringBytes_eq hcount, hstop, unlessStopped_none]
  refine ⟨_, rfl, ⟨fun j q hj hq hbase => ?loaded, fun q hq => ?kept, ?frame⟩, ?log⟩
  case loaded =>
    have hread (b : Nat) (hb : b < 4) : readsByte rt bases count (4 * j + b) = true :=
      readsByte_of_notMem (by rw [hq, show (4 * j + b) / 4 = j by omega]) hbase
    have hloads : stringLoads rt (bases.map (·.toNat)) count (stringReg rt (4 * j)) = true :=
      (stringLoads_eq (by omega) hcount).trans (hread 0 (by decide))
    rw [reg_finish, reg_freeRegs fun h => hbase (mem_stringBasesFilled h).1]
    exact (getElem_writeRegs_of_mem _ q.isLt (stringRegs_pairwise hcount _) (List.mem_filter.2 ⟨List.mem_range.2 hj, hloads⟩)
      ((stringReg_four_mul rt j).trans hq.symm)).trans (stringWord_eq fun b hb hk => hbytes _ hk (hread b hb))
  case kept =>
    have hbase : q ∉ stringBasesFilled rt bases count := fun hmem => by
      obtain ⟨-, k, hk, hkq⟩ := mem_stringBasesFilled hmem
      exact hq (k / 4) (by omega) hkq
    rw [reg_finish, reg_freeRegs hbase]
    exact getElem_writeRegs_of_ne _ q.isLt fun j hj e =>
      hq j (List.mem_range.1 (List.mem_filter.1 hj).1) (e.symm.trans (stringReg_four_mul rt j))
  case frame => exact DataFrame.finish_of_mem (.freeRegs (by exact rfl) _) (freeRegs_mem _ _) nr
  case log =>
    rw [finish_hostLog, freeRegs_hostLog]
    rfl

/-- A string load of accessible bytes. -/
theorem stringLoadForm_accessible (hcount : count ≤ 128)
    (hacc : ∀ k, k < count → readsByte rt bases count k = true → s.accessible false (byteAddress ea k) = true) :
    ∃ t, stringLoadForm rt bases ea count nr s = .next t ∧
      FillsRegisters rt bases count nr (fun k => s.byteAt false (byteAddress ea k)) s t ∧ t.hostLog = s.hostLog := by
  have hks : ∀ a ∈ ((List.range count).filter (readsByte rt bases count)).map (byteAddress ea), s.accessible false a = true :=
    List.forall_mem_map.2 fun k hk => hacc k (List.mem_range.1 (List.mem_filter.1 hk).1) (List.mem_filter.1 hk).2
  have hall := List.all_eq_true.2 hks
  obtain ⟨t, ht, hfills, hlog⟩ := stringLoadForm_runs (nr := nr) (f := fun k => s.byteAt false (byteAddress ea k)) hcount
    (dataStop_none hall (singleBytes_partFails hall)) fun k hk hread => by
      refine (loadPart_accessible _ k (by decide) ?_).trans (by rw [BitVec.add_zero]; rfl)
      rw [byteAddresses_one]
      exact List.forall_mem_singleton.2 (hacc k hk hread)
  exact ⟨t, ht, hfills, hlog.trans (logLoads_accessible _ fun p hp => hks _ (mem_singleBytes hp).1)⟩

/-- A string store to accessible bytes: storage takes the bytes of its registers one after the other. -/
theorem stringStoreForm_accessible (hacc : s.allAccessible true (byteAddresses ea count) = true) :
    ∃ t, stringStoreForm rt ea count nr s = .next t ∧ OnlyStores nr s t ∧
      t.mem = s.storeBytes ((List.range count).map fun k =>
        (byteAddress ea k, (s.reg (BitVec.ofNat 5 (stringReg rt k))).extractLsb' (24 - 8 * (k % 4)) 8)) := by
  have hpairs : ∀ p ∈ s.stringStoreBytes rt ea count, s.accessible true p.1 = true :=
    List.forall_mem_map.2 fun k hk => mem_of_allAccessible hacc _ (mem_byteAddresses (List.mem_range.1 hk))
  have hframe : DataFrame s { s with mem := s.storeBytes (s.stringStoreBytes rt ea count) } := rfl
  have hstores := hframe.onlyMoves (written := []) (fun _ _ => rfl) nr
  rw [finish_hostLog] at hstores
  rw [stringStoreForm, dataStop_none hacc (singleBytes_partFails hacc), unlessStopped_none, afterStores_byteParts hpairs]
  exact ⟨_, rfl, hstores, finish_mem ..⟩

end

/-- lswi and stswi move at most 32 bytes. -/
theorem stringCount_le (nb : BitVec 5) : stringCount nb ≤ 32 := by
  have := nb.isLt
  unfold stringCount
  split <;> omega

/-- The count of lswx and stswx is the number in XER[TBC]. -/
theorem exec_lswx (rt ra rb : Reg) (nr : Bool) (s : State) :
    exec (.lswx rt ra rb nr) s = stringLoadForm rt [ra, rb] (s.eaX ra rb) (s.xer.toNat % 128) nr s := by
  rw [← xerTbc_eq]
  rfl

theorem exec_stswx (rs ra rb : Reg) (nr : Bool) (s : State) :
    exec (.stswx rs ra rb nr) s = stringStoreForm rs (s.eaX ra rb) (s.xer.toNat % 128) nr s := by
  rw [← xerTbc_eq]
  rfl

/-- Settles O16: the bytes that the statement requires to be accessible are those that a string load reads. -/
theorem stringLoadsFillRegisters : Obligations.StringLoadsFillRegisters := by
  unfold Obligations.StringLoadsFillRegisters
  intro s rt ra rb nb nr fills
  have key {i : Instr} {bases : List Reg} {ea : Word} {count : Nat} (hcount : count ≤ 128)
      (hexec : exec i s = stringLoadForm rt bases ea count nr s) : fills i bases ea count := by
    intro hacc
    unfold RunsTo
    rw [hexec]
    refine stringLoadForm_accessible hcount fun k hk hread => hacc k hk ?_
    simpa [readsByte] using hread
  exact ⟨key ((stringCount_le nb).trans (by decide)) rfl, key (Nat.mod_lt _ (by decide)).le (exec_lswx ..)⟩

/-- Settles O17: both instructions are one string store, whose bytes storage takes at consecutive addresses. -/
theorem stringStoresWriteBytes : Obligations.StringStoresWriteBytes := by
  unfold Obligations.StringStoresWriteBytes
  intro s rs ra rb nb nr hm stores
  have key {i : Instr} {ea : Word} {count : Nat} (hcount : count ≤ 128)
      (hexec : exec i s = stringStoreForm rs ea count nr s) : stores i ea count := by
    intro hacc
    unfold RunsTo
    rw [hexec]
    obtain ⟨t, ht, hstores, hmem⟩ := stringStoreForm_accessible (rt := rs) (nr := nr) hacc
    obtain ⟨hstored, hkept⟩ := storeBytes_consecutive hm (by omega) hacc hmem
    refine ⟨t, ht, fun k q hk hq => ?_, hkept, hstores⟩
    have hreg : BitVec.ofNat 5 (stringReg rs k) = q := by
      rw [stringReg, ← hq, BitVec.ofNat_toNat, BitVec.setWidth_eq]
    rw [← byteAddress, hstored k hk, hreg, ← byteOfNat_eq, show 8 * (4 - 1 - k % 4) = 24 - 8 * (k % 4) by omega]
  exact ⟨key ((stringCount_le nb).trans (by decide)) rfl, key (Nat.mod_lt _ (by decide)).le (exec_stswx ..)⟩

end Sys2Proof.Proofs
end

section
/-! PROOF. Additions, subtractions, products and divisions in exact arithmetic (42_arithmetic.md R331 to R352, 43_mac_halfword.md
R390 to R395): each instruction is one of the shared forms of Laws/Ops, so what is left is what its operands and its result
are as whole numbers. -/
namespace Sys2Proof.Proofs
open Sys2Proof Sys2Proof.Machine Sys2Proof.Laws

/-! ## Operands as whole numbers -/

theorem toInt_not (x : Word) : (~~~x).toInt = -x.toInt - 1 := by
  have hx := x.isLt
  simp only [BitVec.toInt_eq_toNat_cond, BitVec.toNat_not]
  split <;> split <;> omega

theorem ra0_toNat (s : State) (ra : Reg) : (s.ra0 ra).toNat = if ra = 0 then 0 else (s.reg ra).toNat :=
  apply_ite BitVec.toNat ..

theorem shifted16_toNat (im : BitVec 16) : (shifted16 im).toNat = 65536 * im.toNat := by
  rw [shifted16, BitVec.toNat_append, BitVec.toNat_ofNat, Nat.zero_mod, Nat.or_zero, Nat.shiftLeft_eq, Nat.mul_comm]

theorem sext16_toInt (im : BitVec 16) : (sext16 im).toInt = im.toInt := BitVec.toInt_signExtend_of_le (by decide)

theorem highHalf_toNat (x : Word) : (highHalf x).toNat = x.toNat / 65536 := by
  have := x.isLt
  rw [highHalf, BitVec.extractLsb'_toNat, Nat.shiftRight_eq_div_pow]
  omega

theorem lowHalf_toNat (x : Word) : (lowHalf x).toNat = x.toNat % 65536 := BitVec.extractLsb'_toNat ..

theorem signedHalf_toNat (x : BitVec 16) : signedHalf x.toNat = x.toInt := by rw [signedHalf, BitVec.ofNat_toNat, BitVec.setWidth_eq]

/-! ## Sums -/

/-- An addition of three whose sum and, where OE = 1, whose signed sum are given as whole numbers. -/
theorem addForm_sums {rt : Reg} {a b : Word} {c carrying oe rc : Bool} {s : State} {u : Nat} {x : Int}
    (hu : a.toNat + b.toNat + bitNat c = u) (hx : oe = true → a.toInt + b.toInt + bitNat c = x) :
    ∃ t, addForm rt a b c carrying oe rc s = .next t ∧
      Results rt (BitVec.ofNat 32 u) (if carrying then some (decide (2 ^ 32 ≤ u)) else none) (ifOe oe (outsideSigned x)) rc s t := by
  have hsum : a + b + bitWord c = BitVec.ofNat 32 u := by
    apply BitVec.eq_of_toNat_eq
    rw [add3_toNat, hu, BitVec.toNat_ofNat]
  have hov : ifOe oe (outsideSigned (a.toInt + b.toInt + bitNat c)) = ifOe oe (outsideSigned x) := by
    cases oe with
    | false => rfl
    | true => rw [hx rfl]
  have h := addForm_results rt a b c carrying oe rc s
  rwa [hsum, hov, hu] at h

/-- addi and addis: a sum without flags. -/
theorem moveForm_sum {rt : Reg} {a b : Word} {s : State} {u : Nat} (hu : a.toNat + b.toNat = u) :
    ∃ t, moveForm rt (a + b) s = .next t ∧ Results rt (BitVec.ofNat 32 u) none none false s t := by
  rw [← hu, BitVec.ofNat_add, BitVec.ofNat_toNat, BitVec.ofNat_toNat, BitVec.setWidth_eq, BitVec.setWidth_eq]
  exact moveForm_results ..

/-- Settles O28: each addition is an addition of RA, a second operand and a carry. -/
theorem additionsAreExact : Obligations.AdditionsAreExact := by
  unfold Obligations.AdditionsAreExact
  intro s rt ra rb im oe rc a b m c sums
  have ha0 : (s.ra0 ra).toNat = if ra = 0 then 0 else a.toNat := ra0_toNat s ra
  have h0 : (0 : Word).toInt = 0 := rfl
  have hm1 : (0xFFFFFFFF : Word).toInt = -1 := rfl
  refine ⟨?add, ?addc, ?adde, ?addme, ?addze, ?addic, ?addicRc, ?addi, ?addis⟩
  case add => exact addForm_sums rfl fun _ => Int.add_zero _
  case addc => exact addForm_sums rfl fun _ => Int.add_zero _
  case adde => exact addForm_sums rfl fun _ => rfl
  case addme => exact addForm_sums rfl fun _ => by rw [hm1, ← sub_eq_add_neg]
  case addze => exact addForm_sums rfl fun _ => by rw [h0, Int.add_zero]
  case addic => exact addForm_sums (oe := false) rfl nofun
  case addicRc => exact addForm_sums (oe := false) rfl nofun
  case addi => exact moveForm_sum (congrArg (· + m.toNat) ha0)
  case addis => exact moveForm_sum (congrArg₂ (· + ·) ha0 (shifted16_toNat im))

/-- Settles O29: each subtraction is an addition of the ones complement of RA. -/
theorem subtractionsAreExact : Obligations.SubtractionsAreExact := by
  unfold Obligations.SubtractionsAreExact
  intro s rt ra rb im oe rc a na b m c sums
  have key {i : Instr} {b' : Word} {c' carrying oe' rc' : Bool} {x : Int}
      (hexec : exec i s = addForm rt (~~~a) b' c' carrying oe' rc' s)
      (hx : oe' = true → -a.toInt - 1 + b'.toInt + bitNat c' = x) :
      RunsTo i s (sums (na + b'.toNat + bitNat c') x carrying oe' rc') := by
    unfold RunsTo
    rw [hexec]
    exact addForm_sums (by rw [BitVec.toNat_not]) fun h => by rw [toInt_not, hx h]
  have h1 : bitNat true = 1 := rfl
  have h0 : (0 : Word).toInt = 0 := rfl
  have hm1 : (0xFFFFFFFF : Word).toInt = -1 := rfl
  refine ⟨?neg, ?subf, ?subfc, ?subfe, ?subfme, ?subfze, ?subfic⟩
  case neg => exact key (b' := 0) (c' := true) rfl fun _ => by rw [h0, h1]; omega
  case subf => exact key (c' := true) rfl fun _ => by rw [h1]; omega
  case subfc => exact key (c' := true) rfl fun _ => by rw [h1]; omega
  case subfe => exact key rfl fun _ => by omega
  case subfme => exact key (b' := 0xFFFFFFFF) rfl fun _ => by rw [hm1]; omega
  case subfze => exact key (b' := 0) rfl fun _ => by rw [h0]; omega
  case subfic => exact key (c' := true) (oe' := false) rfl nofun

/-! ## Products -/

/-- A product fits in a signed word exactly if its low half is the product. -/
theorem productOverflows_eq (a b : Word) : productOverflows a b = outsideSigned (a.toInt * b.toInt) := by
  rw [productOverflows, outsideSigned, BitVec.toInt_mul, ← Bool.decide_or, decide_eq_decide]
  generalize a.toInt * b.toInt = p
  rw [Int.bmod_def]
  omega

/-- The high half of a signed product is its quotient by 2^32, rounded down. -/
theorem highProductSigned_toInt (a b : Word) : (highProductSigned a b).toInt = a.toInt * b.toInt / 2 ^ 32 := by
  have hle : a.toInt * b.toInt ≤ 2 ^ 62 := BitVec.toInt_mul_toInt_le
  have hge : -2 ^ 62 ≤ a.toInt * b.toInt := BitVec.le_toInt_mul_toInt
  exact BitVec.toInt_ofInt_eq_self (by decide) (by omega) (by omega)

theorem highProductUnsigned_toNat (a b : Word) : (highProductUnsigned a b).toNat = a.toNat * b.toNat / 2 ^ 32 := by
  have hlt : a.toNat * b.toNat < 2 ^ 32 * 2 ^ 32 := Nat.mul_lt_mul'' a.isLt b.isLt
  rw [highProductUnsigned, BitVec.toNat_ofNat, Nat.mod_eq_of_lt (Nat.div_lt_of_lt_mul hlt)]

/-- The product of two signed halfwords fits in a word. -/
theorem signedProduct_toInt (x y : BitVec 16) : (signedProduct x y).toInt = x.toInt * y.toInt := by
  have hle : x.toInt * y.toInt ≤ 2 ^ 30 := BitVec.toInt_mul_toInt_le
  have hge : -2 ^ 30 ≤ x.toInt * y.toInt := BitVec.le_toInt_mul_toInt
  rw [signedProduct, BitVec.toInt_mul, BitVec.toInt_signExtend_of_le (by decide), BitVec.toInt_signExtend_of_le (by decide)]
  exact Int.bmod_eq_of_le (by omega) (by omega)

theorem unsignedProduct_toNat (x y : BitVec 16) : (unsignedProduct x y).toNat = x.toNat * y.toNat := by
  have hlt : x.toNat * y.toNat < 2 ^ 16 * 2 ^ 16 := Nat.mul_lt_mul'' x.isLt y.isLt
  rw [unsignedProduct, BitVec.toNat_mul, BitVec.toNat_setWidth_of_le (by decide), BitVec.toNat_setWidth_of_le (by decide)]
  exact Nat.mod_eq_of_lt hlt

/-- The same as `results_writeResult`, of a result that is known by a property P of it. -/
theorem writeResult_reg {rt : Reg} {r : Word} {ca ov : Option Bool} {rc : Bool} {s : State} {P : Word → Prop} (h : P r) :
    ∃ t, Host.Outcome.next (s.writeResult rt r ca ov rc) = (.next t : Result) ∧ P (t.reg rt) ∧
      Results rt (t.reg rt) ca ov rc s t := by
  have hres := results_writeResult s rt r ca ov rc
  obtain ⟨hreg, -⟩ := id hres
  exact ⟨_, rfl, hreg.symm ▸ h, hreg.symm ▸ hres⟩

/-- Settles O30: the low half of a word product is the product modulo 2^32, and the others are the four exact products above. -/
theorem productsAreExact : Obligations.ProductsAreExact := by
  unfold Obligations.ProductsAreExact
  intro s rt ra rb im oe rc a b
  refine ⟨?mulli, ?mullw, ?mulhw, ?mulhwu, ?halfwords⟩
  case mulli =>
    rw [BitVec.ofInt_mul, BitVec.ofInt_toInt, ← sext16_toInt, BitVec.ofInt_toInt]
    exact moveForm_results ..
  case mullw =>
    rw [BitVec.ofInt_mul, BitVec.ofInt_toInt, BitVec.ofInt_toInt, ← productOverflows_eq]
    exact ⟨_, rfl, results_writeResult ..⟩
  case mulhw =>
    obtain ⟨t, ht, hreg, hres⟩ := writeResult_reg (rt := rt) (rc := rc) (s := s) (P := fun r => r.toInt = _)
      (highProductSigned_toInt a b)
    exact ⟨t, ht, by omega, by omega, hres⟩
  case mulhwu =>
    obtain ⟨t, ht, hreg, hres⟩ := writeResult_reg (rt := rt) (rc := rc) (s := s) (P := fun r => r.toNat = _)
      (highProductUnsigned_toNat a b)
    exact ⟨t, ht, by omega, by omega, hres⟩
  case halfwords =>
    intro low high signed unsigned
    have hlow (r : Reg) : low r = (lowHalf (s.reg r)).toNat := (lowHalf_toNat _).symm
    have hhigh (r : Reg) : high r = (highHalf (s.reg r)).toNat := (highHalf_toNat _).symm
    have hsigned (x y : BitVec 16) : (signedProduct x y).toInt = signedHalf x.toNat * signedHalf y.toNat := by
      rw [signedProduct_toInt, signedHalf_toNat, signedHalf_toNat]
    rw [hlow, hlow, hhigh, hhigh]
    refine ⟨?mulchw, ?mulchwu, ?mulhhw, ?mulhhwu, ?mullhw, ?mullhwu⟩
    case mulchw | mulhhw | mullhw => exact writeResult_reg (P := fun r => r.toInt = _) (hsigned ..)
    case mulchwu | mulhhwu | mullhwu => exact writeResult_reg (P := fun r => r.toNat = _) (unsignedProduct_toNat ..)

/-! ## Quotients -/

/-- The one signed division of nonzero divisor whose quotient does not fit. -/
theorem quotient_overflows_iff (a b : Word) :
    (a = 0x80000000#32 ∧ b = 0xFFFFFFFF#32) ↔ (a.toInt = -2 ^ 31 ∧ b.toInt = -1) :=
  and_congr BitVec.toInt_inj.symm BitVec.toInt_inj.symm

/-- The quotient that divw gives is the library's, truncated toward zero. -/
theorem signedQuotient_eq_some {a b : Word} (hb : b ≠ 0) (hfits : ¬(a.toInt = -2 ^ 31 ∧ b.toInt = -1)) :
    ∃ q, signedQuotient a b = some q ∧ q.toInt = a.toInt.tdiv b.toInt := by
  rw [← quotient_overflows_iff] at hfits
  refine ⟨_, if_neg (not_or.2 ⟨hb, hfits⟩), ?_⟩
  rw [BitVec.toInt_ofInt, ← BitVec.toInt_sdiv]
  exact BitVec.toInt_sdiv_of_ne_or_ne a b (not_and_or.1 hfits)

theorem signedQuotient_eq_none {a b : Word} (h : b = 0 ∨ (a.toInt = -2 ^ 31 ∧ b.toInt = -1)) : signedQuotient a b = none :=
  if_pos (h.imp_right (quotient_overflows_iff a b).2)

theorem unsignedQuotient_eq_some {a b : Word} (hb : b ≠ 0) :
    ∃ q, unsignedQuotient a b = some q ∧ q.toNat = a.toNat / b.toNat := by
  refine ⟨_, if_neg hb, ?_⟩
  rw [BitVec.toNat_ofNat, Nat.mod_eq_of_lt ((Nat.div_le_self ..).trans_lt a.isLt)]

theorem unsignedQuotient_eq_none {a b : Word} (hb : b = 0) : unsignedQuotient a b = none := if_pos hb

/-- The remainder of a truncated division has the dividend's sign. -/
theorem tmod_sign (a b : Int) : (0 ≤ a → 0 ≤ a.tmod b) ∧ (a ≤ 0 → a.tmod b ≤ 0) := by
  refine ⟨Int.tmod_nonneg b, fun ha => ?_⟩
  have hneg := Int.tmod_nonneg b (Int.neg_nonneg_of_nonpos ha)
  rw [Int.neg_tmod] at hneg
  omega

/-- A truncated division has a remainder smaller than the divisor and of the dividend's sign. -/
theorem tdiv_remainder {a b : Int} (hb : b ≠ 0) :
    ∃ r, a = a.tdiv b * b + r ∧ r.natAbs < b.natAbs ∧ (0 ≤ a → 0 ≤ r) ∧ (a ≤ 0 → r ≤ 0) := by
  refine ⟨a.tmod b, (Int.tdiv_mul_add_tmod a b).symm, ?_, tmod_sign a b⟩
  rw [Int.natAbs_tmod]
  exact Nat.mod_lt _ (Int.natAbs_pos.2 hb)

/-- Without a quotient CR0[SO] still copies the final XER[SO]. -/
theorem divideForm_none_so {rt : Reg} {oe rc : Bool} {s t : State} (ht : divideForm rt none oe rc s = .next t) (hrc : rc = true) :
    crBit t.cr 3 = xerSo t.xer := by
  subst hrc
  cases ht
  rw [crBit_of_field0 _ _ (by decide), if_pos rfl, crField_withCrField, if_pos rfl]
  exact BitVec.getMsbD_append.trans (BitVec.getMsbD_ofBool ..)

/-- Settles O31: with a quotient by its remainder, without one by what a divide then leaves free. -/
theorem divisionsAreExact : Obligations.DivisionsAreExact := by
  unfold Obligations.DivisionsAreExact
  intro s rt ra rb oe rc a b undefined
  have hundefined {i : Instr} {quotient : Option Word} (hexec : exec i s = divideForm rt quotient oe rc s)
      (hnone : quotient = none) : RunsTo i s undefined := by
    subst hnone
    obtain ⟨t, ht, hregs, hxer, hcr, hfields, hpc, honly⟩ := divideForm_undefined rt oe rc s
    exact ⟨t, hexec.trans ht, hregs, hxer, hcr, hfields, divideForm_none_so ht, hpc, honly⟩
  refine ⟨?signed, ?signedUndefined, ?unsigned, ?unsignedUndefined⟩
  case signed =>
    intro hb hfits
    obtain ⟨q, hq, hval⟩ := signedQuotient_eq_some hb hfits
    obtain ⟨t, ht, hreg, hres⟩ := writeResult_reg (P := fun r => r.toInt = _) hval
    refine ⟨t, (congrArg (divideForm rt · oe rc s) hq).trans ht, ?_, hres⟩
    rw [hreg]
    exact tdiv_remainder fun h => hb (BitVec.eq_of_toInt_eq h)
  case signedUndefined => exact fun h => hundefined rfl (signedQuotient_eq_none h)
  case unsigned =>
    intro hb
    obtain ⟨q, hq, hval⟩ := unsignedQuotient_eq_some hb
    obtain ⟨t, ht, hreg, hres⟩ := writeResult_reg (P := fun r => r.toNat = _) hval
    refine ⟨t, (congrArg (divideForm rt · oe rc s) hq).trans ht, ⟨a.toNat % b.toNat, ?_, ?_⟩, hres⟩
    · rw [hreg]
      exact (Nat.div_add_mod' ..).symm
    · exact Nat.mod_lt _ (Nat.pos_of_ne_zero fun h => hb (BitVec.eq_of_toNat_eq h))
  case unsignedUndefined => exact fun h => hundefined rfl (unsignedQuotient_eq_none h)

end Sys2Proof.Proofs
end

section
/-! PROOF. The multiply-accumulates in exact arithmetic (43_mac_halfword.md R371 to R389): each is one of the two shared
accumulates of Laws/Ops, its product is exact, and at overflow the sign of RT tells on which side the sum leaves the range. -/
namespace Sys2Proof.Proofs
open Sys2Proof Sys2Proof.Machine Sys2Proof.Laws

/-! ## Signed sums -/

/-- The negated product fits as well: the product of two halfwords is not the least word. -/
theorem neg_signedProduct_toInt (x y : BitVec 16) : (-signedProduct x y).toInt = -(x.toInt * y.toInt) := by
  have hge : -2 ^ 30 ≤ x.toInt * y.toInt := BitVec.le_toInt_mul_toInt
  have hne : signedProduct x y ≠ BitVec.intMin 32 := by
    intro h
    have hmin := congrArg BitVec.toInt h
    rw [signedProduct_toInt, BitVec.toInt_intMin_of_pos (by decide)] at hmin
    omega
  rw [BitVec.toInt_neg_of_ne_intMin hne, signedProduct_toInt]

/-- Overflow of an addition of two words: `ovfAdd_eq` without a carry. -/
theorem ovfAdd_add (p t : Word) : ovfAdd p t (p + t) = outsideSigned (p.toInt + t.toInt) := by
  have h := ovfAdd_eq p t false
  rwa [show bitWord false = 0#32 from rfl, BitVec.add_zero, show ((bitNat false : Nat) : Int) = 0 from rfl, Int.add_zero] at h

theorem ofInt_sum (p t : Word) : BitVec.ofInt 32 (p.toInt + t.toInt) = p + t := by
  rw [BitVec.ofInt_add, BitVec.ofInt_toInt, BitVec.ofInt_toInt]

theorem outsideSigned_iff (x : Int) : outsideSigned x = true ↔ x < -2 ^ 31 ∨ 2 ^ 31 ≤ x := by
  rw [outsideSigned, Bool.or_eq_true, decide_eq_true_iff, decide_eq_true_iff]

/-- The saturated sum is the nearest signed word: a sum below the range has two negative summands, one above it none. -/
theorem saturatedSum_eq (p t : Word) :
    (if ovfAdd p t (p + t) then (if t.msb then 0x80000000 else 0x7FFFFFFF) else p + t) =
      BitVec.ofInt 32 (nearestSigned (p.toInt + t.toInt)) := by
  have hlt := BitVec.toInt_lt (x := p)
  have hle := BitVec.le_toInt (x := p)
  simp only [ovfAdd_add, outsideSigned_iff, msb_iff_toInt, decide_eq_true_iff]
  by_cases hout : p.toInt + t.toInt < -2 ^ 31 ∨ 2 ^ 31 ≤ p.toInt + t.toInt
  · rw [if_pos hout]
    rcases hout with hbelow | habove
    · have hnear : nearestSigned (p.toInt + t.toInt) = -2 ^ 31 := by unfold nearestSigned; omega
      rw [if_pos (by omega), hnear]
      rfl
    · have hnear : nearestSigned (p.toInt + t.toInt) = 2 ^ 31 - 1 := by unfold nearestSigned; omega
      rw [if_neg (by omega), hnear]
      rfl
  · have hnear : nearestSigned (p.toInt + t.toInt) = p.toInt + t.toInt := by unfold nearestSigned; omega
    rw [if_neg hout, hnear, ofInt_sum]

/-! ## Signed accumulates -/

/-- A signed accumulate of a product given as a whole number. -/
theorem accumulateSigned_modulo {rt : Reg} {p : Word} {x : Int} {oe rc : Bool} {s : State} (hp : p.toInt = x) :
    ∃ t, accumulateSigned rt p false oe rc s = .next t ∧ Results rt (BitVec.ofInt 32 (x + (s.reg rt).toInt)) none
      (ifOe oe (outsideSigned (x + (s.reg rt).toInt))) rc s t := by
  rw [← hp, ofInt_sum, ← ovfAdd_add]
  exact accumulateSigned_results rt p false oe rc s

/-- A saturating signed accumulate of a product given as a whole number. -/
theorem accumulateSigned_saturates {rt : Reg} {p : Word} {x : Int} {oe rc : Bool} {s : State} (hp : p.toInt = x) :
    ∃ t, accumulateSigned rt p true oe rc s = .next t ∧
      Results rt (BitVec.ofInt 32 (nearestSigned (x + (s.reg rt).toInt))) none
        (ifOe oe (outsideSigned (x + (s.reg rt).toInt))) rc s t := by
  rw [← hp, ← saturatedSum_eq, ← ovfAdd_add]
  exact accumulateSigned_results rt p true oe rc s

/-- Settles O32: each is a signed accumulate, modulo 2^32 or saturating, of an exact product or of its negative. -/
theorem signedAccumulates : Obligations.SignedAccumulates := by
  unfold Obligations.SignedAccumulates
  intro s rt ra rb oe rc lowA highA lowB highB modulo saturates
  refine ⟨?macchw, ?machhw, ?maclhw, ?nmacchw, ?nmachhw, ?nmaclhw, ?macchws, ?machhws, ?maclhws,
    ?nmacchws, ?nmachhws, ?nmaclhws⟩
  case macchw | machhw | maclhw => exact accumulateSigned_modulo (signedProduct_toInt ..)
  case nmacchw | nmachhw | nmaclhw => exact accumulateSigned_modulo (neg_signedProduct_toInt ..)
  case macchws | machhws | maclhws => exact accumulateSigned_saturates (signedProduct_toInt ..)
  case nmacchws | nmachhws | nmaclhws => exact accumulateSigned_saturates (neg_signedProduct_toInt ..)

/-! ## Unsigned accumulates -/

theorem ofNat_sum (p t : Word) : BitVec.ofNat 32 (p.toNat + t.toNat) = p + t := by
  rw [BitVec.ofNat_add, BitVec.ofNat_toNat, BitVec.ofNat_toNat, BitVec.setWidth_eq, BitVec.setWidth_eq]

theorem carry_false (p t : Word) : carry p t false = decide (2 ^ 32 ≤ p.toNat + t.toNat) := rfl

/-- The saturated unsigned sum is the exact sum, or all ones where that reaches 2^32. -/
theorem saturatedUnsignedSum_eq (p t : Word) :
    (if carry p t false then 0xFFFFFFFF else p + t) = BitVec.ofNat 32 (min (p.toNat + t.toNat) (2 ^ 32 - 1)) := by
  rw [carry_false]
  by_cases hcarry : 2 ^ 32 ≤ p.toNat + t.toNat
  · rw [if_pos (decide_eq_true hcarry), Nat.min_eq_right (by omega)]
    rfl
  · rw [if_neg (by simpa using hcarry), Nat.min_eq_left (by omega), ofNat_sum]

/-- An unsigned accumulate of a product given as a whole number. -/
theorem accumulateUnsigned_modulo {rt : Reg} {p : Word} {x : Nat} {oe rc : Bool} {s : State} (hp : p.toNat = x) :
    ∃ t, accumulateUnsigned rt p false oe rc s = .next t ∧ Results rt (BitVec.ofNat 32 (x + (s.reg rt).toNat)) none
      (ifOe oe (decide (2 ^ 32 ≤ x + (s.reg rt).toNat))) rc s t := by
  rw [← hp, ofNat_sum, ← carry_false]
  exact accumulateUnsigned_results rt p false oe rc s

/-- A saturating unsigned accumulate of a product given as a whole number. -/
theorem accumulateUnsigned_saturates {rt : Reg} {p : Word} {x : Nat} {oe rc : Bool} {s : State} (hp : p.toNat = x) :
    ∃ t, accumulateUnsigned rt p true oe rc s = .next t ∧
      Results rt (BitVec.ofNat 32 (min (x + (s.reg rt).toNat) (2 ^ 32 - 1))) none
        (ifOe oe (decide (2 ^ 32 ≤ x + (s.reg rt).toNat))) rc s t := by
  rw [← hp, ← saturatedUnsignedSum_eq, ← carry_false]
  exact accumulateUnsigned_results rt p true oe rc s

/-- Settles O33: each is an unsigned accumulate, modulo 2^32 or saturating, of an exact product. -/
theorem unsignedAccumulates : Obligations.UnsignedAccumulates := by
  unfold Obligations.UnsignedAccumulates
  intro s rt ra rb oe rc lowA highA lowB highB modulo saturates
  refine ⟨?macchwu, ?machhwu, ?maclhwu, ?macchwsu, ?machhwsu, ?maclhwsu⟩
  case macchwu | machhwu | maclhwu => exact accumulateUnsigned_modulo (unsignedProduct_toNat ..)
  case macchwsu | machhwsu | maclhwsu => exact accumulateUnsigned_saturates (unsignedProduct_toNat ..)

end Sys2Proof.Proofs
end

section
/-! PROOF. The logical and compare instructions (44_logical_compare.md R411 to R431): each is one of the two shared forms, so what
is left is the bits of its result, or the four bits of its compare field. -/
namespace Sys2Proof.Proofs
open Sys2Proof Sys2Proof.Machine Sys2Proof.Laws

/-! ## Bits of an immediate, in the manual's numbering -/

theorem bitOf_eq_getMsbD (x : Word) {j : Nat} (hj : j < 32) : bitOf x j = x.getMsbD j := by
  rw [BitVec.getMsbD_eq_getLsbD, decide_eq_true hj, Bool.true_and]
  rfl

theorem bitOf_zext16 (im : BitVec 16) {j : Nat} (hj : j < 32) :
    bitOf (zext16 im) j = (decide (16 ≤ j) && im.getMsbD (j - 16)) := by
  rw [bitOf_eq_getMsbD _ hj, zext16, BitVec.getMsbD_setWidth, show j + 16 - 32 = j - 16 by omega]

theorem bitOf_shifted16 (im : BitVec 16) {j : Nat} (hj : j < 32) :
    bitOf (shifted16 im) j = (decide (j < 16) && im.getMsbD j) := by
  rw [bitOf_eq_getMsbD _ hj, shifted16, BitVec.getMsbD_append, BitVec.getMsbD_zero]
  split
  · rw [decide_eq_false (by omega), Bool.false_and]
  · rw [decide_eq_true (by omega), Bool.true_and]

theorem bitOf_eqv (x y : Word) (j : Nat) : bitOf (~~~(x ^^^ y)) j = (bitOf x j == bitOf y j) := by
  rw [bitOf_not, bitOf_xor]
  exact Bool.not_not _

/-! ## Counting leading zeros -/

/-- The bits counted, from bit n - 1 down, are 0, and the count stops short of n only at a bit that is 1. -/
theorem leadingZeros_spec (x : Word) (n : Nat) : (∀ j, j < leadingZeros x n → x.getLsbD (n - 1 - j) = false) ∧
    (leadingZeros x n < n ∧ x.getLsbD (n - 1 - leadingZeros x n) = true ∨ leadingZeros x n = n) := by
  induction n with
  | zero => exact ⟨fun j hj => absurd hj (Nat.not_lt_zero j), .inr rfl⟩
  | succ n ih =>
    obtain ⟨hzeros, hend⟩ := ih
    have hplace (j : Nat) : n + 1 - 1 - (j + 1) = n - 1 - j := by omega
    unfold leadingZeros
    split
    · next hone => exact ⟨fun j hj => absurd hj (Nat.not_lt_zero j), .inl ⟨Nat.succ_pos n, hone⟩⟩
    · next hzero =>
      refine ⟨fun j hj => ?_, ?_⟩
      · cases j with
        | zero => exact Bool.eq_false_of_not_eq_true hzero
        | succ j => exact hplace j ▸ hzeros j (Nat.lt_of_succ_lt_succ hj)
      · rw [hplace]
        exact hend.imp (And.imp_left Nat.succ_lt_succ) (congrArg Nat.succ)

/-- Leading zeros of a word: only zeros before bit n, and n is the place of a 1 or the word is 0. -/
def CountsLeadingZeros (x : Word) (n : Nat) : Prop :=
  (∀ j, j < n → bitOf x j = false) ∧ (n < 32 ∧ bitOf x n = true ∨ n = 32 ∧ x = 0)

theorem leadingZeros_counts (x : Word) : CountsLeadingZeros x (leadingZeros x 32) := by
  obtain ⟨hzeros, hend⟩ := leadingZeros_spec x 32
  refine ⟨hzeros, hend.imp_right fun hall => ⟨hall, eq_of_bits fun j hj => ?_⟩⟩
  exact (hzeros j (hj.trans_eq hall.symm)).trans BitVec.getLsbD_zero.symm

/-- The count fits in a word. -/
theorem leadingZeros_toNat (x : Word) : (BitVec.ofNat 32 (leadingZeros x 32)).toNat = leadingZeros x 32 := by
  obtain ⟨-, hend⟩ := leadingZeros_spec x 32
  rw [BitVec.toNat_ofNat]
  omega

/-! ## Logical -/

/-- A logical instruction whose result is known bit by bit. -/
theorem logicalForm_bits {ra : Reg} {v : Word} {rc : Bool} {s : State} {bit : Nat → Bool} (h : ∀ j, j < 32 → bitOf v j = bit j) :
    ∃ t, logicalForm ra v rc s = .next t ∧ (∀ j, j < 32 → bitOf (t.reg ra) j = bit j) ∧
      Results ra (t.reg ra) none none rc s t :=
  writeResult_reg (P := fun r => ∀ j, j < 32 → bitOf r j = bit j) h

/-- Sign extension of the low-order n bits keeps their signed value. -/
theorem signExtend_low_toInt {n : Nat} (hn : n ≤ 32) (x : Word) :
    ((x.extractLsb' 0 n).signExtend 32).toInt = (BitVec.ofNat n x.toNat).toInt :=
  BitVec.toInt_signExtend_of_le hn

/-- Settles O34: the fourteen bitwise instructions by the bits of their result, the other three by their value. -/
theorem logicalBitByBit : Obligations.LogicalBitByBit := by
  unfold Obligations.LogicalBitByBit
  intro s rs ra rb im rc bitwise b low high
  have hlow {j : Nat} (hj : j < 32) : bitOf (zext16 im) j = low j := bitOf_zext16 im hj
  have hhigh {j : Nat} (hj : j < 32) : bitOf (shifted16 im) j = high j := bitOf_shifted16 im hj
  refine ⟨?and, ?andc, ?or, ?orc, ?xor, ?eqv, ?nand, ?nor, ?andi, ?andis, ?ori, ?oris, ?xori, ?xoris, ?cntlzw, ?extsb, ?extsh⟩
  case and => exact logicalForm_bits fun j _ => bitOf_and ..
  case andc => exact logicalForm_bits fun j _ => by rw [bitOf_and, bitOf_not]
  case or => exact logicalForm_bits fun j _ => bitOf_or ..
  case orc => exact logicalForm_bits fun j _ => by rw [bitOf_or, bitOf_not]
  case xor => exact logicalForm_bits fun j _ => bitOf_xor ..
  case eqv => exact logicalForm_bits fun j _ => bitOf_eqv ..
  case nand => exact logicalForm_bits fun j _ => by rw [bitOf_not, bitOf_and]
  case nor => exact logicalForm_bits fun j _ => by rw [bitOf_not, bitOf_or]
  case andi => exact logicalForm_bits fun j hj => by rw [bitOf_and, hlow hj]
  case andis => exact logicalForm_bits fun j hj => by rw [bitOf_and, hhigh hj]
  case ori => exact logicalForm_bits fun j hj => by rw [bitOf_or, hlow hj]
  case oris => exact logicalForm_bits fun j hj => by rw [bitOf_or, hhigh hj]
  case xori => exact logicalForm_bits fun j hj => by rw [bitOf_xor, hlow hj]
  case xoris => exact logicalForm_bits fun j hj => by rw [bitOf_xor, hhigh hj]
  case cntlzw =>
    have hcount := leadingZeros_counts (s.reg rs)
    rw [← leadingZeros_toNat] at hcount
    obtain ⟨t, ht, ⟨hzeros, hend⟩, hres⟩ := writeResult_reg (P := fun r => CountsLeadingZeros (s.reg rs) r.toNat) hcount
    exact ⟨t, ht, hzeros, hend, hres⟩
  case extsb | extsh => exact writeResult_reg (P := fun r => r.toInt = _) (signExtend_low_toInt (by decide) _)

/-! ## Compare -/

theorem zext16_toNat (im : BitVec 16) : (zext16 im).toNat = im.toNat := BitVec.toNat_setWidth_of_le (by decide)

theorem compareSigned_eq (a b xer : Word) : compareSigned a b xer =
    fourBits (decide (a.toInt < b.toInt)) (decide (b.toInt < a.toInt)) (decide (a.toInt = b.toInt)) (xerSo xer) := by
  rw [compareSigned, beq_eq_decide, decide_eq_decide.2 BitVec.toInt_inj.symm]
  rfl

theorem compareUnsigned_eq (a b xer : Word) : compareUnsigned a b xer =
    fourBits (decide (a.toNat < b.toNat)) (decide (b.toNat < a.toNat)) (decide (a.toNat = b.toNat)) (xerSo xer) := by
  rw [compareUnsigned, beq_eq_decide, decide_eq_decide.2 BitVec.toNat_inj.symm]
  rfl

/-- A compare whose field is known. -/
theorem compareForm_field {bf : BitVec 3} {c v : BitVec 4} (hc : c = v) (nr : Bool) (s : State) :
    ∃ t, compareForm bf c nr s = .next t ∧ FieldBecomes bf v nr s t ∧ OnlyCr s t :=
  hc ▸ ⟨_, rfl, fieldBecomes_finish ..⟩

/-- Settles O35: the compare field in whole numbers, of a register or of an extended immediate. -/
theorem comparesWriteTheirField : Obligations.ComparesWriteTheirField := by
  unfold Obligations.ComparesWriteTheirField
  intro s bf ra rb im nr signed unsigned
  refine ⟨?cmp, ?cmpi, ?cmpl, ?cmpli⟩
  case cmp => exact compareForm_field (compareSigned_eq ..) ..
  case cmpi => exact compareForm_field (by rw [compareSigned_eq, sext16_toInt]) ..
  case cmpl => exact compareForm_field (compareUnsigned_eq ..) ..
  case cmpli => exact compareForm_field (by rw [compareUnsigned_eq, zext16_toNat]) ..

end Sys2Proof.Proofs
end

section
/-! PROOF. The branch instructions (45_branch_cr_logical.md R450 to R457): targets in whole numbers, and bc, bclr and bcctr by one
conditional branch. -/
namespace Sys2Proof.Proofs
open Sys2Proof Sys2Proof.Machine Sys2Proof.Laws

/-! ## Targets (R450) -/

/-- A displacement field counts words. -/
theorem displacement_toInt {n : Nat} (hn : n + 2 ≤ 32) (x : BitVec n) : ((x ++ 0#2).signExtend 32).toInt = 4 * x.toInt := by
  rw [BitVec.toInt_signExtend_of_le hn, BitVec.toInt_append]
  cases n with
  | zero => simp [BitVec.of_length_zero]
  | succ n => simp

/-- A relative or absolute target, modulo 2^32. -/
theorem target_eq_ofInt {d : Word} {x : Int} (hd : d.toInt = x) (aa : Bool) (pc : Word) :
    (if aa then 0 else pc) + d = BitVec.ofInt 32 ((if aa then 0 else pc.toInt) + x) := by
  have hbase : (if aa then 0 else pc.toInt) = (if aa then 0 else pc).toInt := by cases aa <;> rfl
  rw [hbase, ← hd, ofInt_sum]

/-! ## Conditional branches (R451) -/

theorem branchTaken_iff (bo bi : BitVec 5) (s : State) : branchTaken bo bi (counted bo s) s.cr = true ↔ Taken bo bi s := by
  have hzero : ((counted bo s == 0) = bo.getMsbD 3) ↔ (counted bo s = 0 ↔ bo.getMsbD 3 = true) := by
    rw [Bool.eq_iff_iff, beq_iff_eq]
  simp only [branchTaken, Taken, Bool.and_eq_true, Bool.or_eq_true, beq_iff_eq, hzero]

/-- The address after a conditional branch: the target, or the next address. -/
def GoesTo (bo bi : BitVec 5) (target : Word) (s t : State) : Prop :=
  (Taken bo bi s → t.pc = target) ∧ (¬Taken bo bi s → t.pc = s.pc + 4)

theorem goesTo_of_pc {bo bi : BitVec 5} {target : Word} {s t : State}
    (h : t.pc = if branchTaken bo bi (counted bo s) s.cr then target else s.pc + 4) : GoesTo bo bi target s t :=
  ⟨fun htaken => h.trans (if_pos ((branchTaken_iff ..).2 htaken)),
    fun hnot => h.trans (if_neg fun htaken => hnot ((branchTaken_iff ..).1 htaken))⟩

/-- A conditional branch whose target is known. -/
theorem branchForm_goesTo {bo bi : BitVec 5} {target : Word → Word} {s : State} {address : Word}
    (h : target (counted bo s) = address) (lk : Bool) :
    ∃ t, branchForm bo bi target lk s = .next t ∧ t = { s with ctr := counted bo s, lr := s.linkAfter lk, pc := t.pc } ∧
      GoesTo bo bi address s t :=
  h ▸ ⟨_, branchForm_next .., rfl, goesTo_of_pc rfl⟩

theorem counted_of_keep {bo : BitVec 5} (h : bo.getMsbD 2 = true) (s : State) : counted bo s = s.ctr := if_pos h

theorem counted_of_decrement {bo : BitVec 5} (h : bo.getMsbD 2 = false) (s : State) : counted bo s = s.ctr - 1 :=
  if_neg (Bool.eq_false_iff.1 h)

/-- Settles O38: b by its displacement, the others by the one conditional branch, but for bcctr with BO[2] = 0, whose target is the
decremented CTR while CTR becomes free. -/
theorem branchesGoToTheirTarget : Obligations.BranchesGoToTheirTarget := by
  unfold Obligations.BranchesGoToTheirTarget
  intro s li bo bi bd aa lk lr goes branches
  refine ⟨?b, ?bc, ?bclr, fun hkeep => ?bcctr, fun hdecrement => ?bcctrInvalid⟩
  case b =>
    rw [← target_eq_ofInt (displacement_toInt (by decide) li)]
    exact ⟨_, rfl, rfl⟩
  case bc => exact branchForm_goesTo (target := fun _ => _) (target_eq_ofInt (displacement_toInt (by decide) bd) aa s.pc) lk
  case bclr => exact branchForm_goesTo (target := fun _ => wordAligned s.lr) rfl lk
  case bcctr =>
    obtain ⟨t, ht, hbranches⟩ := branchForm_goesTo (bi := bi) (congrArg wordAligned (counted_of_keep hkeep s)) lk
    exact ⟨t, (execBcctr_kept hkeep bi lk s).trans ht, hbranches⟩
  case bcctrInvalid =>
    refine ⟨_, execBcctr_free hdecrement bi lk s, rfl, goesTo_of_pc ?_⟩
    rw [counted_of_decrement hdecrement]
    rfl

end Sys2Proof.Proofs
end

section
/-! PROOF. The condition register logical instructions and mcrf (45_branch_cr_logical.md R458 to R466): their words are rows of the
OPCD 19 table, and each of the eight is one write of a CR bit. -/
namespace Sys2Proof.Proofs
open Sys2Proof Sys2Proof.Machine Sys2Proof.Laws

/-! ## Words -/

/-- A word of OPCD 19 whose extended opcode has a row. -/
theorem decodeWord_opcd19 {w : Word} {xo : Nat} {f : Word → Instr} (hopcd : (opcd w).toNat = 19) (hxo : (xo10 w).toNat = xo)
    (hrow : findRow xo group19 = some f) : decodeWord w = .ok (f w) :=
  decodeWord_group19 w _ f (BitVec.eq_of_toNat_eq hopcd) rfl (hxo ▸ hrow)

/-- The CR logical instructions by their extended opcodes. -/
def crLogicalOpcodes : List (Nat × (BitVec 5 → BitVec 5 → BitVec 5 → Bool → Instr)) :=
  [(257, .crand), (129, .crandc), (289, .creqv), (225, .crnand), (33, .crnor), (449, .cror), (417, .crorc), (193, .crxor)]

theorem findRow_crLogicalOpcodes : ∀ p ∈ crLogicalOpcodes,
    findRow p.1 group19 = some fun w => p.2 (f06 w) (f11 w) (f16 w) (bit31 w) := by
  simp only [crLogicalOpcodes, List.forall_mem_cons]
  exact ⟨rfl, rfl, rfl, rfl, rfl, rfl, rfl, rfl, List.forall_mem_nil _⟩

/-! ## CR bits -/

theorem crBit_withCrBit (cr : Word) (i j : BitVec 5) (b : Bool) :
    crBit (withCrBit cr i b) j = if j = i then b else crBit cr j := by
  simp only [crBit, withCrBit, bitOf_withBit cr _ _ b i.isLt j.isLt, BitVec.toNat_inj]

/-- The end of an instruction keeps the CR bits, but those of CR0 if bit 31 was 1. -/
theorem crBit_finish (s : State) {nr : Bool} {j : BitVec 5} (h : nr = false ∨ 4 ≤ j) :
    crBit (s.finish nr).cr j = crBit s.cr j := by
  cases nr with
  | false => rfl
  | true => exact crBit_withCrField_zero s.cr _ (h.resolve_left (by decide))

/-- CR bit bt becomes b and the other bits are as before; CR0 is free if bit 31 was 1. -/
def BitBecomes (bt : BitVec 5) (b nr : Bool) (s t : State) : Prop :=
  ∀ j : BitVec 5, (nr = false ∨ 4 ≤ j) → crBit t.cr j = if j = bt then b else crBit s.cr j

/-- A CR logical instruction whose bit is known. -/
theorem crLogicalForm_bit {b v : Bool} (h : b = v) (bt : BitVec 5) (nr : Bool) (s : State) :
    ∃ t, crLogicalForm bt b nr s = .next t ∧ BitBecomes bt v nr s t ∧ OnlyCr s t := by
  subst h
  refine ⟨_, rfl, fun j hj => ?_, by cases nr <;> rfl⟩
  rw [crBit_finish _ hj, crBit_withCrBit]

/-- Settles O39: the words by their rows, the eight logical instructions by their bit, mcrf by its field. -/
theorem crLogicalWritesOneBit : Obligations.CrLogicalWritesOneBit := by
  unfold Obligations.CrLogicalWritesOneBit
  refine ⟨fun w hopcd p hp hxo => decodeWord_opcd19 hopcd hxo (findRow_crLogicalOpcodes p hp),
    fun w hopcd hxo => decodeWord_opcd19 hopcd hxo rfl, ?_⟩
  intro s bt ba bb bf bfa nr writes
  refine ⟨?crand, ?crandc, ?creqv, ?crnand, ?crnor, ?cror, ?crorc, ?crxor, ?mcrf⟩
  case crand | crandc | crnand | crnor | cror | crorc | crxor => exact crLogicalForm_bit rfl bt nr s
  case creqv => exact crLogicalForm_bit (Bool.not_not _) bt nr s
  case mcrf => exact ⟨_, rfl, fieldBecomes_finish ..⟩

end Sys2Proof.Proofs
end

section
/-! PROOF. The rotates under a mask and the shifts (46_rotate_shift.md R480 to R487): each is one of the two shared forms, so what is
left is the bits of a rotation and of its mask, or the value of a shift and the carry of an algebraic one. -/
namespace Sys2Proof.Proofs
open Sys2Proof Sys2Proof.Machine Sys2Proof.Laws

/-! ## Rotates (R480 to R483) -/

theorem bitOf_rotateLeft (x : Word) (n : Nat) {j : Nat} (hj : j < 32) : bitOf (x.rotateLeft n) j = bitOf x ((j + n) % 32) := by
  rw [bitOf_eq_getMsbD _ hj, bitOf_eq_getMsbD _ (Nat.mod_lt _ (by decide)), BitVec.getMsbD_rotateLeft, decide_eq_true hj,
    Bool.true_and, Nat.add_comm]

theorem bitOf_allOnes_ushiftRight (n : Nat) {j : Nat} (hj : j < 32) :
    bitOf (BitVec.allOnes 32 >>> n) j = decide (n ≤ j) := by
  rw [bitOf_eq_getMsbD _ hj, BitVec.getMsbD_ushiftRight, BitVec.getMsbD_allOnes, decide_eq_true hj,
    decide_eq_true (show j - n < 32 by omega), Bool.true_and, Bool.and_true, ← decide_not, decide_eq_decide, Nat.not_lt]

theorem bitOf_allOnes_shiftLeft {n : Nat} (hn : n < 32) {j : Nat} (hj : j < 32) :
    bitOf (BitVec.allOnes 32 <<< (31 - n)) j = decide (j ≤ n) := by
  rw [bitOf_eq_getMsbD _ hj, BitVec.getMsbD_shiftLeft, BitVec.getMsbD_allOnes, decide_eq_decide]
  omega

/-- Whether bit j lies from bit mb through bit me, past bit 31 to bit 0 if mb > me. -/
def InMask (mb me : BitVec 5) (j : Nat) : Bool :=
  if mb ≤ me then decide (mb.toNat ≤ j) && decide (j ≤ me.toNat) else decide (mb.toNat ≤ j) || decide (j ≤ me.toNat)

theorem bitOf_rotateMask (mb me : BitVec 5) {j : Nat} (hj : j < 32) : bitOf (rotateMask mb me) j = InMask mb me j := by
  unfold rotateMask InMask
  split
  · rw [bitOf_and, bitOf_allOnes_ushiftRight _ hj, bitOf_allOnes_shiftLeft me.isLt hj]
  · rw [bitOf_or, bitOf_allOnes_ushiftRight _ hj, bitOf_allOnes_shiftLeft me.isLt hj]

/-- A word under a mask, above another word outside it. -/
theorem bitOf_select (x y m : Word) (j : Nat) :
    bitOf ((x &&& m) ||| (y &&& ~~~m)) j = if bitOf m j then bitOf x j else bitOf y j := by
  rw [bitOf_or, bitOf_and, bitOf_and, bitOf_not]
  cases bitOf m j <;> simp

theorem bitOf_and_mask (x m : Word) (j : Nat) : bitOf (x &&& m) j = if bitOf m j then bitOf x j else false := by
  rw [bitOf_and]
  cases bitOf m j <;> simp

/-- A rotate whose result is known bit by bit. -/
theorem rotateForm_bits {ra : Reg} {v : Word} {rc : Bool} {s : State} {bit : Nat → Bool} (h : ∀ j, j < 32 → bitOf v j = bit j) :
    ∃ t, rotateForm ra v rc s = .next t ∧ Results ra (t.reg ra) none none rc s t ∧ ∀ j, j < 32 → bitOf (t.reg ra) j = bit j := by
  obtain ⟨t, ht, hbits, hres⟩ := writeResult_reg (P := fun r => ∀ j, j < 32 → bitOf r j = bit j) h
  exact ⟨t, ht, hres, hbits⟩

/-- Settles O36: the bits of the rotated word where the mask is 1, those of RA or 0 where it is 0. -/
theorem rotatesUnderMask : Obligations.RotatesUnderMask := by
  unfold Obligations.RotatesUnderMask
  intro s rs ra rb sh mb me rc inMask rotated
  have hmask {j : Nat} (hj : j < 32) : bitOf (rotateMask mb me) j = inMask j := bitOf_rotateMask mb me hj
  have hrotated (n : Nat) {j : Nat} (hj : j < 32) : bitOf ((s.reg rs).rotateLeft n) j = rotated n j :=
    bitOf_rotateLeft (s.reg rs) n hj
  have hcount : ((s.reg rb).extractLsb' 0 5).toNat = (s.reg rb).toNat % 32 := BitVec.extractLsb'_toNat ..
  refine ⟨?rlwimi, ?rlwinm, ?rlwnm⟩
  case rlwimi => exact rotateForm_bits fun j hj => by rw [bitOf_select, hmask hj, hrotated _ hj]
  case rlwinm => exact rotateForm_bits fun j hj => by rw [bitOf_and_mask, hmask hj, hrotated _ hj]
  case rlwnm => exact rotateForm_bits fun j hj => by rw [bitOf_and_mask, hmask hj, hrotated _ hj, hcount]

/-! ## Shifts (R484 to R487) -/

theorem shiftCount_eq (x : Word) : shiftCount x = x.toNat % 64 := BitVec.extractLsb'_toNat ..

theorem shiftLeft_toNat (x : Word) (n : Nat) : (x <<< n).toNat = x.toNat * 2 ^ n % 2 ^ 32 := by
  rw [BitVec.toNat_shiftLeft, Nat.shiftLeft_eq]

theorem ushiftRight_toNat (x : Word) (n : Nat) : (x >>> n).toNat = x.toNat / 2 ^ n := by
  rw [BitVec.toNat_ushiftRight, Nat.shiftRight_eq_div_pow]

/-- An algebraic right shift divides and rounds down. -/
theorem sshiftRight_toInt (x : Word) (n : Nat) : (x.sshiftRight n).toInt = x.toInt / 2 ^ n := by
  rw [BitVec.toInt_sshiftRight, Int.shiftRight_eq_div_pow, Nat.cast_pow, Nat.cast_ofNat]

/-- The bits that a right shift by n shifts out are the remainder of the division by 2^n. -/
theorem lowBits_toNat (x : Word) (n : Nat) : (x &&& ~~~(BitVec.allOnes 32 <<< n)).toNat = x.toNat % 2 ^ n := by
  refine Nat.eq_of_testBit_eq fun i => ?_
  rw [Nat.testBit_mod_two_pow, BitVec.testBit_toNat, BitVec.testBit_toNat, BitVec.getLsbD_and, BitVec.getLsbD_not,
    BitVec.getLsbD_shiftLeft, BitVec.getLsbD_allOnes]
  by_cases hi : i < 32
  · simp [hi, show i - n < 32 by omega, Bool.and_comm]
  · simp [hi, BitVec.getLsbD_of_ge x i (Nat.not_lt.1 hi)]

/-- A power of two up to 2^32 divides a word as a signed number exactly if it divides it as an unsigned one. -/
theorem two_pow_dvd_toInt_iff_of_le (x : Word) {n : Nat} (hn : n ≤ 32) : (2 : Int) ^ n ∣ x.toInt ↔ 2 ^ n ∣ x.toNat := by
  have hword : (2 : Int) ^ n ∣ x.toNat - x.toInt := by
    rw [BitVec.toInt_eq_toNat_bmod]
    exact (pow_dvd_pow 2 hn).trans Int.dvd_self_sub_bmod
  rw [← Int.natCast_dvd_natCast, Nat.cast_pow, Nat.cast_ofNat]
  exact (dvd_iff_dvd_of_dvd_sub hword).symm

/-- The same for every power of two: from 2^32 on it divides no word but 0. -/
theorem two_pow_dvd_toInt_iff (x : Word) (n : Nat) : (2 : Int) ^ n ∣ x.toInt ↔ 2 ^ n ∣ x.toNat := by
  rcases Nat.le_total n 32 with hn | hn
  · exact two_pow_dvd_toInt_iff_of_le x hn
  · have hzero (h : 2 ^ 32 ∣ x.toNat) : x = 0 := BitVec.eq_of_toNat_eq (Nat.eq_zero_of_dvd_of_lt h x.isLt)
    constructor
    · intro h
      rw [hzero ((two_pow_dvd_toInt_iff_of_le x le_rfl).1 ((pow_dvd_pow 2 hn).trans h))]
      exact dvd_zero _
    · intro h
      rw [hzero ((pow_dvd_pow 2 hn).trans h)]
      exact dvd_zero _

/-- The bits shifted out are all 0 exactly if the division leaves no remainder. -/
theorem lowBits_eq_zero_iff (x : Word) (n : Nat) : x &&& ~~~(BitVec.allOnes 32 <<< n) = 0 ↔ x.toInt % 2 ^ n = 0 := by
  rw [← BitVec.toNat_inj, lowBits_toNat, ← Int.dvd_iff_emod_eq_zero, two_pow_dvd_toInt_iff]
  exact (Nat.dvd_iff_mod_eq_zero ..).symm

theorem shiftedOut_eq (x : Word) (n : Nat) : shiftedOut x n = decide (x.toInt < 0 ∧ x.toInt % 2 ^ n ≠ 0) := by
  rw [shiftedOut, BitVec.msb_eq_toInt, Bool.decide_and, bne, beq_eq_decide, ← decide_not,
    decide_eq_decide.2 (lowBits_eq_zero_iff x n).not]

/-- An algebraic right shift by n: the quotient, and CA. -/
theorem shiftAlgebraicForm_scales (ra : Reg) (x : Word) (n : Nat) (rc : Bool) (s : State) :
    ∃ t, shiftAlgebraicForm ra (x.sshiftRight n) (shiftedOut x n) rc s = .next t ∧ (t.reg ra).toInt = x.toInt / 2 ^ n ∧
      Results ra (t.reg ra) (some (decide (x.toInt < 0 ∧ x.toInt % 2 ^ n ≠ 0))) none rc s t := by
  rw [← shiftedOut_eq]
  exact writeResult_reg (P := fun r => r.toInt = _) (sshiftRight_toInt x n)

/-- Settles O37: the values of the logical shifts, and the two algebraic ones by their shared form. -/
theorem shiftsScale : Obligations.ShiftsScale := by
  unfold Obligations.ShiftsScale
  intro s rs ra rb sh rc x n algebraic
  have hcount : n = shiftCount (s.reg rb) := (shiftCount_eq _).symm
  rw [hcount]
  refine ⟨?slw, ?srw, ?sraw, ?srawi⟩
  case slw => exact writeResult_reg (P := fun r => r.toNat = _) (shiftLeft_toNat x _)
  case srw => exact writeResult_reg (P := fun r => r.toNat = _) (ushiftRight_toNat x _)
  case sraw | srawi => exact shiftAlgebraicForm_scales ra x _ rc s

end Sys2Proof.Proofs
end

section
/-! PROOF. The cache operations (47_cache_management.md R500 to R517) and the instructions without an effect (49_processor_management.md
R561, R562, R568, 48_interrupt_control_tlb.md R542). -/
namespace Sys2Proof.Proofs
open Sys2Proof Sys2Proof.Machine Sys2Proof.Laws

section
variable {s : State} {nr : Bool}

theorem runsTo_finish {i : Instr} (h : exec i s = .next (s.finish nr)) : RunsTo i s (OnlyAdvances nr s) :=
  ⟨_, h, onlyAdvances_finish s nr⟩

/-- A cache operation whose operand passes translation and protection. -/
theorem cacheForm_permitted {store : Bool} {ea : Word} (h : s.permitted store ea = true) :
    cacheForm store ea nr s = .next (s.finish nr) := by
  rw [cacheForm, translationStopAt_permitted h, unlessStopped_none]

/-- Settles O41: each instruction ends at once; those with an operand have passed its check, the privileged ones theirs. -/
theorem noOperationsOnlyAdvance : Obligations.NoOperationsOnlyAdvance := by
  unfold Obligations.NoOperationsOnlyAdvance
  intro s ra rb nr
  simp only [List.forall_mem_cons, List.not_mem_nil, false_implies, implies_true, and_true]
  refine ⟨?hints, fun hperm => ?cache, fun hpr hperm => ?privilegedCache, fun hpr => ?privilegedHints⟩
  case hints =>
    and_intros
    all_goals exact runsTo_finish rfl
  case cache =>
    and_intros
    all_goals exact runsTo_finish (cacheForm_permitted hperm)
  case privilegedCache =>
    and_intros
    all_goals exact runsTo_finish ((privileged_supervisor hpr _).trans (cacheForm_permitted hperm))
  case privilegedHints =>
    and_intros
    all_goals exact runsTo_finish (privileged_supervisor hpr _)

/-! ## dcbz -/

/-- Storage that is cachable and copy-back. -/
def Zeroable (s : State) (base : Word) : Prop := ∀ real a, s.translateData true base = .real real a → a.i = false ∧ a.w = false

theorem blockRefusesZero_of_zeroable {base : Word} (h : Zeroable s base) : s.blockRefusesZero base = false := by
  unfold State.blockRefusesZero
  split
  next real a hreal => simp [h real a hreal]
  all_goals rfl

/-- A dcbz that nothing stops stores its 32 bytes one by one. -/
theorem exec_dcbz {ra rb : Reg} (hperm : s.permitted true (blockBase (s.eaX ra rb)) = true)
    (hzero : Zeroable s (blockBase (s.eaX ra rb)))
    (hbus : busStop s true (singleBytes (byteAddresses (blockBase (s.eaX ra rb)) 32)) = none) : exec (.dcbz ra rb nr) s =
      .next ((s.afterStores (byteParts ((List.range 32).map fun k => (byteAddress (blockBase (s.eaX ra rb)) k, 0)))).finish nr) := by
  have hbytes : (byteAddresses (blockBase (s.eaX ra rb)) 32).map (fun a => (a, (0 : Byte)))
      = (List.range 32).map fun k => (byteAddress (blockBase (s.eaX ra rb)) k, 0) := List.map_map
  show execDcbz ra rb nr s = _
  simp only [execDcbz, translationStopAt_permitted hperm, blockRefusesZero_of_zeroable hzero, hbus, unlessStopped_none, hbytes]
  rfl

theorem permitted_of_accessible {store : Bool} {ea : Word} (h : s.accessible store ea = true) : s.permitted store ea = true := by
  obtain ⟨ra, a, hreal, -⟩ := (accessible_iff ..).1 h
  rw [State.permitted, hreal]

/-- Storage written at the end of an instruction without a record bit. -/
theorem onlyStores_finish (s : State) (m : List Host.Cell) (nr : Bool) :
    OnlyStores nr s (State.finish { s with mem := m } nr) ∧ (State.finish { s with mem := m } nr).mem = m := by
  have hframe : DataFrame s { s with mem := m } := rfl
  have hstores := hframe.onlyMoves (written := []) (fun _ _ => rfl) nr
  rw [finish_hostLog] at hstores
  exact ⟨hstores, finish_mem ..⟩

/-- dcbz of an accessible block. -/
theorem dcbz_accessible {ra rb : Reg} (hm : Memory.wf s.mem = true)
    (hacc : s.allAccessible true (byteAddresses (blockBase (s.eaX ra rb)) 32) = true)
    (hzero : Zeroable s (blockBase (s.eaX ra rb))) : RunsTo (.dcbz ra rb nr) s fun t =>
      Holds false (blockBase (s.eaX ra rb)) 32 0 s t ∧ KeptOutside (blockBase (s.eaX ra rb)) 32 s t ∧ OnlyStores nr s t := by
  have hbyte {k : Nat} (hk : k < 32) : s.accessible true (byteAddress (blockBase (s.eaX ra rb)) k) = true :=
    mem_of_allAccessible hacc _ (mem_byteAddresses hk)
  have hfirst := permitted_of_accessible (hbyte (k := 0) (by decide))
  rw [byteAddress, BitVec.add_zero] at hfirst
  have hexec := exec_dcbz (nr := nr) hfirst hzero (busStop_none (singleBytes_partFails hacc))
  have hpairs : ∀ p ∈ (List.range 32).map fun k => (byteAddress (blockBase (s.eaX ra rb)) k, (0 : Byte)),
      s.accessible true p.1 = true := List.forall_mem_map.2 fun k hk => hbyte (List.mem_range.1 hk)
  rw [afterStores_byteParts hpairs] at hexec
  obtain ⟨hstores, hmem⟩ := onlyStores_finish s _ nr
  obtain ⟨hstored, hkept⟩ := storeBytes_consecutive (byte := fun _ => 0) hm (by decide) hacc hmem
  refine ⟨_, hexec, fun k hk => ?_, hkept, hstores⟩
  refine (congrArg BitVec.toNat (hstored k hk)).trans ?_
  simp [byteOfNat]

/-! ## dcread and icread -/

theorem exec_dcread {rt ra rb : Reg} (hpr : s.prBit = false) (hperm : s.permitted false (s.eaX ra rb) = true)
    (hal : misaligned (s.eaX ra rb) = false) :
    exec (.dcread rt ra rb nr) s = .next (((s.setReg rt (s.free 0)).drawn 1).finish nr) := by
  refine (privileged_supervisor hpr _).trans ?_
  rw [alignmentStop_permitted (List.forall_mem_singleton.2 hperm) hal, unlessStopped_none]

theorem exec_icread {ra rb : Reg} (hpr : s.prBit = false) (hperm : s.permitted false (s.eaX ra rb) = true) :
    exec (.icread ra rb nr) s = .next ((State.drawn { s with icdbdr := s.free 0 } 1).finish nr) := by
  refine (privileged_supervisor hpr _).trans ?_
  rw [translationStopAt_permitted hperm, unlessStopped_none]

end

/-- Settles O42: dcbz by its bytes one after the other, dcread and icread by the value they draw. -/
theorem cacheInstructionsWithAnEffect : Obligations.CacheInstructionsWithAnEffect := by
  unfold Obligations.CacheInstructionsWithAnEffect
  intro s rt ra rb nr base
  refine ⟨dcbz_accessible, fun hpr hperm => ⟨fun hal => ?dcread, ?icread⟩⟩
  case dcread => exact ⟨_, exec_dcread hpr hperm hal, onlyMoves_drawn s rt (s.free 0) 1 nr⟩
  case icread =>
    obtain ⟨hframe, hcr⟩ := onlyAdvances_finish (State.drawn { s with icdbdr := s.free 0 } 1) nr
    exact ⟨_, exec_icread hpr hperm, hcr, by cases nr <;> rfl⟩

end Sys2Proof.Proofs
end

section
/-! PROOF. The moves of CR, XER and MSR, the device control registers, the returns, sc and the traps (49_processor_management.md R563 to
R576, 48_interrupt_control_tlb.md R531 to R536, 60_exceptions.md R603, R617, R643). -/
namespace Sys2Proof.Proofs
open Sys2Proof Sys2Proof.Machine Sys2Proof.Laws

/-! ## CR and XER (R563 to R566) -/

/-- FXM bit k selects the four bits of field k. -/
theorem bitOf_fieldMask_foldl (fxm : BitVec 8) (ks : List Nat) (hks : ∀ k ∈ ks, k < 8) (m : Word) {j : Nat} (hj : j < 32) :
    bitOf (ks.foldl (fun m k => if fxm.getMsbD k then m ||| (0xF#32 <<< (28 - 4 * k)) else m) m) j
      = (bitOf m j || ks.any fun k => fxm.getMsbD k && decide (j / 4 = k)) := by
  induction ks generalizing m with
  | nil => simp
  | cons k ks ih =>
    have hk : k < 8 := hks k List.mem_cons_self
    have hfield : bitOf (0xF#32 <<< (28 - 4 * k)) j = decide (j / 4 = k) :=
      (by decide : ∀ (k : Fin 8) (j : Fin 32), bitOf (0xF#32 <<< (28 - 4 * k.val)) j.val = decide (j.val / 4 = k.val)) ⟨k, hk⟩ ⟨j, hj⟩
    rw [List.foldl_cons, ih (fun i hi => hks i (List.mem_cons_of_mem _ hi)), List.any_cons]
    cases fxm.getMsbD k <;> simp [bitOf_or, hfield, Bool.or_assoc]

theorem bitOf_fieldMask (fxm : BitVec 8) {j : Nat} (hj : j < 32) : bitOf (fieldMask fxm) j = fxm.getMsbD (j / 4) := by
  have h8 : j / 4 < 8 := by omega
  rw [fieldMask, bitOf_fieldMask_foldl _ _ (fun k hk => List.mem_range.1 hk) _ hj, Bool.eq_iff_iff]
  simp [bitOf, h8]

/-- A field is determined by its four bits. -/
theorem crField_congr {x y : Word} {k : BitVec 3} (h : ∀ b, b < 4 → bitOf x (4 * k.toNat + b) = bitOf y (4 * k.toNat + b)) :
    crField x k = crField y k := by
  refine BitVec.eq_of_getMsbD_eq fun b hb => ?_
  rw [← bitOf_crField x k b hb, ← bitOf_crField y k b hb, h b hb]

/-- CR with the fields that FXM selects taken from a word. -/
theorem crField_fieldMask (v cr : Word) (fxm : BitVec 8) (k : BitVec 3) :
    crField ((v &&& fieldMask fxm) ||| (cr &&& ~~~fieldMask fxm)) k = if fxm.getMsbD k.toNat then crField v k else crField cr k := by
  have hbit {b : Nat} (hb : b < 4) : bitOf ((v &&& fieldMask fxm) ||| (cr &&& ~~~fieldMask fxm)) (4 * k.toNat + b)
      = if fxm.getMsbD k.toNat then bitOf v (4 * k.toNat + b) else bitOf cr (4 * k.toNat + b) := by
    have hk := k.isLt
    rw [bitOf_select, bitOf_fieldMask fxm (by omega), show (4 * k.toNat + b) / 4 = k.toNat by omega]
  split
  · exact crField_congr fun b hb => by rw [hbit hb, if_pos ‹_›]
  · exact crField_congr fun b hb => by rw [hbit hb, if_neg ‹_›]

/-- The end of an instruction keeps the CR fields, but CR0 if bit 31 was 1. -/
theorem crField_finish (s : State) {nr : Bool} {k : BitVec 3} (h : nr = false ∨ k ≠ 0) :
    crField (s.finish nr).cr k = crField s.cr k := by
  obtain ⟨hall, hothers⟩ := crKept_finish s nr
  rcases h with h | h
  · rw [hall h]
  · exact hothers k h

/-- Settles O40. -/
theorem crAndXerMoves : Obligations.CrAndXerMoves := by
  unfold Obligations.CrAndXerMoves
  intro s r bf fxm nr
  refine ⟨⟨_, rfl, ?mcrxr, finish_xer .., by cases nr <;> rfl⟩, ⟨_, rfl, loads_setReg s r s.cr nr⟩,
    ⟨_, rfl, fun k hk => ?mtcrf, by cases nr <;> rfl⟩⟩
  case mcrxr => exact (fieldBecomes_finish { s with xer := s.xer &&& 0x1FFFFFFF } bf _ nr).1
  case mtcrf => rw [crField_finish _ hk, crField_fieldMask]

/-! ## Device control registers (R565, R567) -/

/-- Settles O46: a mapped number is read and written with the host's log, an unmapped one without. -/
theorem dcrMoves : Obligations.DcrMoves := by
  unfold Obligations.DcrMoves
  intro s r n nr hpr
  have hread : exec (.mfdcr r n nr) s = readForm r (s.dcrValue n) nr (s.afterDcr n (.dcrRead n)) := privileged_supervisor hpr _
  have hwrite : exec (.mtdcr r n nr) s = .next ((s.afterDcr n (.dcrWrite n (s.reg r))).finish nr) := privileged_supervisor hpr _
  unfold RunsTo
  rw [hread, hwrite]
  constructor
  · intro hmapped
    simp only [State.dcrValue, State.afterDcr, List.contains_iff_mem.2 hmapped, if_true]
    exact ⟨readForm_some .., _, rfl, onlyAdvances_finish ..⟩
  · intro hunmapped
    simp only [State.dcrValue, State.afterDcr, List.contains_iff_mem, hunmapped, if_false]
    exact ⟨readForm_none .., _, rfl, onlyAdvances_finish ..⟩

/-! ## The MSR (R531 to R536, R617) -/

/-- The MSR written at the end of an instruction. -/
theorem msr_finish (s : State) (m : Word) (nr : Bool) : (State.finish { s with msr := m } nr).msr = m ∧
    CrKept nr s (State.finish { s with msr := m } nr) ∧ State.finish { s with msr := m } nr = { s with
      msr := (State.finish { s with msr := m } nr).msr, cr := (State.finish { s with msr := m } nr).cr, pc := s.pc + 4,
      freeCount := (State.finish { s with msr := m } nr).freeCount } :=
  ⟨finish_msr .., crKept_finish { s with msr := m } nr, by cases nr <;> rfl⟩

theorem bitOf_withBit_ee (m : Word) (b : Bool) :
    bitOf (withBit m 16 b) 16 = b ∧ ∀ j, j < 32 → j ≠ 16 → bitOf (withBit m 16 b) j = bitOf m j := by
  constructor
  · rw [bitOf_withBit _ _ _ _ (by decide) (by decide), if_pos rfl]
  · intro j hj hne
    rw [bitOf_withBit _ _ _ _ (by decide) hj, if_neg hne]

/-- A return in supervisor state. -/
theorem returnForm_supervisor {s : State} (hpr : s.prBit = false) (address status : Word) (nr : Bool) :
    ∃ t, returnForm address status nr s = .next t ∧ CrKept nr s t ∧ t = { s with
      pc := address &&& 0xFFFFFFFC, msr := status &&& 0x020EFF30, cr := t.cr, freeCount := t.freeCount } :=
  ⟨_, privileged_supervisor hpr _, crKept_of (by cases nr <;> rfl), by cases nr <;> rfl⟩

/-- What a privileged instruction does in problem state. -/
theorem privileged_traps {i : Instr} {s : State} {effect : Result} (hpr : s.prBit = true) (h : exec i s = privileged s effect) :
    RunsTo i s fun t => (Takes .program s.pc s t ∧ Syndrome 0x04000000 s t) ∧ t.dear = s.dear ∧ t.dbsr = s.dbsr :=
  ⟨_, h.trans (privileged_problem hpr _), programInterrupt_takes .privileged s, takeInterrupt_dear .., takeInterrupt_dbsr ..⟩

theorem runsTo_mono {i : Instr} {s : State} {P Q : State → Prop} (h : RunsTo i s P) (hPQ : ∀ t, P t → Q t) : RunsTo i s Q :=
  h.imp fun t ht => ⟨ht.1, hPQ t ht.2⟩

/-- Settles O43. -/
theorem machineStateMovesAndReturns : Obligations.MachineStateMovesAndReturns := by
  unfold Obligations.MachineStateMovesAndReturns
  constructor
  · intro s r e nr hpr sets onlyEe
    have hsets {i : Instr} {m : Word} {p : Word → Prop} (hm : p m)
        (hexec : exec i s = privileged s (.next (State.finish { s with msr := m } nr))) : RunsTo i s (sets p) := by
      obtain ⟨hmsr, hcr, hframe⟩ := msr_finish s m nr
      exact ⟨_, hexec.trans (privileged_supervisor hpr _), hmsr.symm ▸ hm, hcr, hframe⟩
    exact ⟨⟨_, privileged_supervisor hpr _, loads_setReg s r s.msr nr⟩, hsets (p := fun m => m = _) rfl rfl,
      hsets (bitOf_withBit_ee _ _) rfl, hsets (bitOf_withBit_ee _ _) rfl⟩
  · intro s nr returns
    refine ⟨fun hpr => ⟨returnForm_supervisor hpr .., returnForm_supervisor hpr ..⟩, fun hpr => ?_⟩
    simp only [List.forall_mem_cons, List.not_mem_nil, false_implies, implies_true, and_true]
    exact ⟨runsTo_mono (privileged_traps hpr rfl) fun _ h => h.1, runsTo_mono (privileged_traps hpr rfl) fun _ h => h.1⟩

/-- Settles O51: each instruction asks for supervisor state before its effect. -/
theorem privilegedInstructionsTrap : Obligations.PrivilegedInstructionsTrap := by
  unfold Obligations.PrivilegedInstructionsTrap
  intro s r ra rb ws n e nr hpr
  have htraps {i : Instr} {effect : Result} (h : exec i s = privileged s effect) : RunsTo i s fun t =>
      Takes .program s.pc s t ∧ Syndrome 0x04000000 s t ∧ t.dear = s.dear ∧ t.dbsr = s.dbsr :=
    runsTo_mono (privileged_traps hpr h) fun _ ⟨⟨htakes, hsyndrome⟩, hkept⟩ => ⟨htakes, hsyndrome, hkept⟩
  have hspr (effect : Result) (hn : n.getLsbD 4 = true) : privilegedIf (privilegedSpr n) s effect = privileged s effect := if_pos hn
  rintro i (hi | ⟨hn, hi⟩)
  · revert i
    simp only [List.forall_mem_cons, List.not_mem_nil, false_implies, implies_true, and_true]
    and_intros
    all_goals exact htraps rfl
  · revert i
    simp only [List.forall_mem_cons, List.not_mem_nil, false_implies, implies_true, and_true]
    exact ⟨htraps (hspr _ hn), htraps (hspr _ hn)⟩

/-! ## Interrupts (R603, R643) -/

/-- Settles O54. -/
theorem interruptEntryTable : Obligations.InterruptEntryTable := by
  unfold Obligations.InterruptEntryTable
  intro s saved p hp
  have hrow : p.1.offset = p.2.1 ∧ p.1.critical = p.2.2 := by
    revert p
    decide
  exact ⟨hrow.1, hrow.2, takes_takeInterrupt .., takeInterrupt_esr .., takeInterrupt_dear .., takeInterrupt_dbsr ..⟩

/-- An address whose two low-order bits are 0 already. -/
theorem wordAligned_of_aligned {a : Word} (h : misaligned a = false) : wordAligned a = a := by
  rw [misaligned_eq_false_iff] at h
  refine eq_of_bits fun i hi => ?_
  have hmask : bitOf 0xFFFFFFFC i = decide (i < 30) :=
    (by decide : ∀ i : Fin 32, bitOf 0xFFFFFFFC i.val = decide (i.val < 30)) ⟨i, hi⟩
  rw [wordAligned, bitOf_and, hmask]
  by_cases hi30 : i < 30
  · simp [hi30]
  · have hlow : a.getLsbD (31 - i) = false := by simpa [show 31 - i < 2 by omega] using congrArg (·.getLsbD (31 - i)) h
    simp [bitOf, hlow]

/-- Settles O49: the next address is aligned, so it is saved as it is. -/
theorem systemCallEntry : Obligations.SystemCallEntry := by
  unfold Obligations.SystemCallEntry
  intro s hal
  refine ⟨_, rfl, ?_⟩
  have hnext : wordAligned (s.pc + 4) = s.pc + 4 := wordAligned_of_aligned (misaligned_add hal rfl)
  rw [← hnext]
  rfl

end Sys2Proof.Proofs
end

section
/-! PROOF. The traps tw and twi (49_processor_management.md R575, R576) and the TLB instructions (48_interrupt_control_tlb.md R540 to
R544). -/
namespace Sys2Proof.Proofs
open Sys2Proof Sys2Proof.Machine Sys2Proof.Laws

/-! ## Traps -/

/-- The trap condition in exact arithmetic. -/
theorem trapCondition_iff (tcond : BitVec 5) (a b : Word) : trapCondition tcond a b = true ↔
    (tcond.getMsbD 0 = true ∧ a.toInt < b.toInt) ∨ (tcond.getMsbD 1 = true ∧ b.toInt < a.toInt) ∨
      (tcond.getMsbD 2 = true ∧ a = b) ∨ (tcond.getMsbD 3 = true ∧ a.toNat < b.toNat) ∨
      (tcond.getMsbD 4 = true ∧ b.toNat < a.toNat) := by
  simp only [trapCondition, Bool.or_eq_true, Bool.and_eq_true, beq_iff_eq, BitVec.slt_iff_toInt_lt, BitVec.ult_iff_toNat_lt,
    or_assoc]

/-- Recording events in internal debug mode: with MSR[DE] = 1 their bits, with MSR[DE] = 0 IDE as well (60_exceptions.md R676). -/
theorem recordDebugEvents_enabled {bits : Word} (hbits : bits ≠ 0) {s : State} (hde : s.deBit = true) :
    recordDebugEvents bits s = { s with dbsr := s.dbsr ||| (bits &&& debugEventMask) } := by
  rw [recordDebugEvents, if_neg hbits]
  simp [hde]

theorem recordDebugEvents_disabled {bits : Word} (hbits : bits ≠ 0) {s : State} (hde : s.deBit = false) :
    recordDebugEvents bits s = { s with dbsr := s.dbsr ||| ((bits &&& debugEventMask) ||| bitMask 11) } := by
  rw [recordDebugEvents, if_neg hbits]
  simp [hde, BitVec.or_assoc]

/-- What a trap does, by the debug modes: the clauses of `TrapsOnTheirCondition`. -/
theorem trap_cases {i : Instr} {s : State} (h : exec i s = trap s) :
    ((s.tdeBit = false ∨ (s.idmBit = false ∧ s.externalDebugMode = false)) →
      RunsTo i s fun t => Takes .program s.pc s t ∧ Syndrome 0x02000000 s t ∧ t.dear = s.dear ∧ t.dbsr = s.dbsr) ∧
    (s.tdeBit = true → s.idmBit = true → s.externalDebugMode = false → s.deBit = true →
      RunsTo i s fun t => Takes .debug s.pc s t ∧ t.dbsr = s.dbsr ||| 0x10000000 ∧ t.esr = s.esr ∧ t.dear = s.dear) ∧
    (s.tdeBit = true → s.idmBit = true → s.externalDebugMode = false → s.deBit = false →
      RunsTo i s fun t => Takes .program s.pc s t ∧ Syndrome 0x02000000 s t ∧ t.dbsr = s.dbsr ||| 0x10100000 ∧
        t.dear = s.dear) ∧
    (s.tdeBit = true → s.externalDebugMode = true → exec i s = .refused .externalDebug) := by
  unfold RunsTo
  rw [h, trap]
  refine ⟨fun hoff => ?program, fun htde hidm hext hde => ?debug, fun htde hidm hext hde => ?recorded, fun htde hext => ?refused⟩
  case program =>
    have hnone : (s.tdeBit && s.externalDebugMode) = false ∧ (s.tdeBit && s.idmBit) = false := by
      rcases hoff with h | ⟨h, h'⟩
      · simp [h]
      · simp [h, h']
    obtain ⟨htakes, hsyndrome⟩ := programInterrupt_takes .trap s
    simp only [hnone, Bool.false_eq_true, if_false]
    exact ⟨_, rfl, htakes, hsyndrome, takeInterrupt_dear .., takeInterrupt_dbsr ..⟩
  case debug =>
    simp only [htde, hidm, hext, hde, Bool.true_and, Bool.false_eq_true, if_false, if_true, debugInterrupt,
      recordDebugEvents_enabled (bits := bitMask 3) (by decide) hde]
    exact ⟨_, rfl, takes_of_agree rfl, takeInterrupt_dbsr .., takeInterrupt_esr .., takeInterrupt_dear ..⟩
  case recorded =>
    simp only [htde, hidm, hext, hde, Bool.true_and, Bool.false_eq_true, if_false, if_true,
      recordDebugEvents_disabled (bits := bitMask 3) (by decide) hde]
    exact ⟨_, rfl, takes_of_agree rfl, takeInterrupt_esr .., takeInterrupt_dbsr .., takeInterrupt_dear ..⟩
  case refused => simp [htde, hext]

/-- Settles O50. -/
theorem trapsOnTheirCondition : Obligations.TrapsOnTheirCondition := by
  unfold Obligations.TrapsOnTheirCondition
  intro s tcond ra rb im nr a holds traps
  have hcond (b : Word) : trapCondition tcond a b = true ↔ holds b := trapCondition_iff ..
  have htw : exec (.tw tcond ra rb nr) s = if trapCondition tcond a (s.reg rb) then trap s else .next (s.finish nr) := rfl
  have htwi : exec (.twi tcond ra im) s = if trapCondition tcond a (im.signExtend 32) then trap s else .next (s.finish false) := rfl
  refine ⟨fun h => runsTo_finish ?_, fun h => trap_cases ?_, fun h => runsTo_finish ?_, fun h => trap_cases ?_⟩
  · rw [htw, if_neg (mt (hcond _).1 h)]
  · rw [htw, if_pos ((hcond _).2 h)]
  · rw [htwi, if_neg (mt (hcond _).1 h)]
  · rw [htwi, if_pos ((hcond _).2 h)]

/-! ## The TLB words (R541, R544) -/

theorem toNat_append_eq {m n : Nat} (x : BitVec m) (y : BitVec n) : (x ++ y).toNat = x.toNat * 2 ^ n + y.toNat := by
  rw [BitVec.toNat_append, ← Nat.shiftLeft_add_eq_or_of_lt y.isLt, Nat.shiftLeft_eq]

theorem toNat_ofBool_eq (b : Bool) : (BitVec.ofBool b).toNat = bitNat b := by cases b <;> rfl

theorem hiWord_toNat (e : TlbEntry) : e.hiWord.toNat = e.epn.toNat * 1024 + e.size.toNat * 128 + bitNat e.v * 64
    + bitNat e.e * 32 + bitNat e.u0 * 16 := by
  simp only [TlbEntry.hiWord, toNat_append_eq, toNat_ofBool_eq, BitVec.toNat_ofNat]
  omega

theorem loWord_toNat (e : TlbEntry) : e.loWord.toNat = e.rpn.toNat * 1024 + bitNat e.ex * 512 + bitNat e.wr * 256
    + e.zsel.toNat * 16 + bitNat e.w * 8 + bitNat e.i * 4 + bitNat e.m * 2 + bitNat e.g := by
  simp only [TlbEntry.loWord, toNat_append_eq, toNat_ofBool_eq]
  omega

theorem tlbIndex_toNat (x : Word) : (tlbIndex x).toNat = x.toNat % 64 := by
  rw [tlbIndex, BitVec.extractLsb'_toNat]
  rfl

/-- A page number in the upper 22 bits of a TLB word. -/
theorem pageField_toNat (v : Word) : (v.extractLsb' 10 22).toNat = v.toNat / 1024 := by
  have := v.isLt
  rw [BitVec.extractLsb'_toNat, Nat.shiftRight_eq_div_pow]
  omega

/-- An instruction that writes the TLB and ends. -/
theorem runsTo_tlb_finish {i : Instr} {s : State} {tlb : Vector TlbEntry 64} {nr : Bool}
    (h : exec i s = .next (State.finish { s with tlb := tlb } nr)) : RunsTo i s fun t =>
      t.tlb = tlb ∧ CrKept nr s t ∧ t = { s with tlb := t.tlb, cr := t.cr, pc := s.pc + 4, freeCount := t.freeCount } :=
  ⟨_, h, finish_tlb .., crKept_finish { s with tlb := tlb } nr, by cases nr <;> rfl⟩

theorem withLo_fields (e : TlbEntry) (v : Word) :
    (e.withLo v).rpn.toNat = v.toNat / 1024 ∧ (e.withLo v).zsel.toNat = v.toNat / 16 % 16 ∧
    e.withLo v = { e with rpn := (e.withLo v).rpn, ex := bitOf v 22, wr := bitOf v 23, zsel := (e.withLo v).zsel,
                          w := bitOf v 28, i := bitOf v 29, m := bitOf v 30, g := bitOf v 31 } :=
  ⟨pageField_toNat v, (BitVec.extractLsb'_toNat ..).trans (by rw [Nat.shiftRight_eq_div_pow]), rfl⟩

theorem withHi_fields (e : TlbEntry) (v : Word) (tid : BitVec 8) :
    (e.withHi v tid).epn.toNat = v.toNat / 1024 ∧ (e.withHi v tid).size.toNat = v.toNat / 128 % 8 ∧
    e.withHi v tid = { e with epn := (e.withHi v tid).epn, size := (e.withHi v tid).size, v := bitOf v 25, e := bitOf v 26,
                              u0 := bitOf v 27, tid := tid } :=
  ⟨pageField_toNat v, (BitVec.extractLsb'_toNat ..).trans (by rw [Nat.shiftRight_eq_div_pow]), rfl⟩

/-- A move to one register that an invalid form makes free. -/
theorem runsTo_mayBeFree {i : Instr} {s u : State} {r : Reg} {v : Word} {free nr : Bool}
    (h : exec i s = .next (((u.setReg r v).freeRegs (if free then [r] else [])).finish nr)) :
    RunsTo i s fun t => RegsKept [r] u t ∧ CrKept nr u t ∧ (free = false → t.reg r = v) ∧
      t = { u with gpr := t.gpr, cr := t.cr, pc := u.pc + 4, freeCount := t.freeCount } := by
  refine ⟨_, h, fun q hq => ?regs, ?cr, ?value, ?frame⟩
  case regs =>
    have hfree : q ∉ if free then [r] else [] := by cases free <;> simp_all
    have hother : (u.setReg r v).reg q = u.reg q := reg_setReg_other _ _ _ _ (by simpa using hq)
    exact (reg_finish ..).trans ((reg_freeRegs hfree _).trans hother)
  case cr =>
    have hframe : DataFrame u ((u.setReg r v).freeRegs (if free then [r] else [])) := ((DataFrame.refl u).setReg r v).freeRegs _
    exact (hframe.finish nr).1
  case value =>
    rintro rfl
    exact (reg_finish ..).trans (reg_setReg_same ..)
  case frame =>
    rw [freeRegs_eq]
    cases nr <;> rfl

/-- Settles O44. -/
theorem tlbWordsMove : Obligations.TlbWordsMove := by
  unfold Obligations.TlbWordsMove
  intro s r ra ws nr j hj hpr hindex e v low
  obtain rfl : (tlbIndex (s.reg ra)).toNat = j := (tlbIndex_toNat _).trans hindex
  refine ⟨?tlbwe, ?tlbre, ?tlbia⟩
  case tlbwe =>
    obtain ⟨t, ht, htlb, hcr, hframe⟩ := runsTo_tlb_finish (i := .tlbwe r ra ws nr) (privileged_supervisor hpr _)
    have hwritten : t.tlb[(tlbIndex (s.reg ra)).toNat] = if low then e.withLo v else e.withHi v s.pid8 := by
      simp only [htlb, Vector.getElem_set_self]
      rfl
    refine ⟨t, ht, fun k hk hne => ?_, fun hlow => ?_, fun hlow => ?_, hcr, hframe⟩
    · simp only [htlb]
      exact Vector.getElem_set_ne _ _ (Ne.symm hne)
    · rw [hwritten, hlow]
      exact withLo_fields e v
    · rw [hwritten, hlow]
      obtain ⟨hepn, hsize, hentry⟩ := withHi_fields e v s.pid8
      exact ⟨hepn, hsize, BitVec.extractLsb'_toNat .., hentry⟩
  case tlbre =>
    cases hlow : low
    case true =>
      have hexec : exec (.tlbre r ra ws nr) s =
          .next (((s.setReg r e.loWord).freeRegs (if invalidWs ws then [r] else [])).finish nr) := by
        refine (privileged_supervisor hpr _).trans ?_
        simp only [show ws.getMsbD 4 = true from hlow, if_true]
        rfl
      obtain ⟨t, ht, hregs, hcr, hvalue, hframe⟩ := runsTo_mayBeFree hexec
      refine ⟨t, ht, hregs, hcr, ?_, fun _ => by rw [hframe], ?_, by simp, by rw [hframe]⟩
      · rintro rfl
        rw [hvalue rfl]
        exact loWord_toNat e
      · rintro rfl
        exact absurd hlow (by decide)
    case false =>
      have hexec : exec (.tlbre r ra ws nr) s = .next (((State.setReg { s with pid := e.tid.setWidth 32 } r e.hiWord).freeRegs
          (if invalidWs ws then [r] else [])).finish nr) := by
        refine (privileged_supervisor hpr _).trans ?_
        simp only [show ws.getMsbD 4 = false from hlow, Bool.false_eq_true, if_false]
        rfl
      obtain ⟨t, ht, hregs, hcr, hvalue, hframe⟩ := runsTo_mayBeFree hexec
      refine ⟨t, ht, hregs, hcr, ?_, by simp, ?_, fun _ => ?_, by rw [hframe]⟩
      · rintro rfl
        exact absurd hlow (by decide)
      · rintro rfl
        rw [hvalue rfl]
        exact hiWord_toNat e
      · rw [hframe]
        exact BitVec.toNat_setWidth_of_le (by decide)
  case tlbia =>
    obtain ⟨t, ht, htlb, hcr, hframe⟩ := runsTo_tlb_finish (i := .tlbia nr) (privileged_supervisor hpr _)
    exact ⟨t, ht, fun k hk => by simp [htlb], hcr, hframe⟩

/-! ## The search (R543) -/

/-- CR as the record form of tlbsx leaves it. -/
def searchCr (s : State) (rc found : Bool) : Word :=
  if rc then withCrField s.cr 0 (fourBits false false found (xerSo s.xer)) else s.cr

theorem searchCr_records {s t : State} {rc found : Bool} (hcr : t.cr = searchCr s rc found) :
    (rc = false → t.cr = s.cr) ∧ (rc = true → FieldBecomes 0 (fourBits false false found (xerSo s.xer)) false s t) := by
  cases rc
  · exact ⟨fun _ => hcr, by simp⟩
  · refine ⟨by simp, fun _ => ⟨fun _ => ?_, fun k hk _ => ?_⟩⟩
    · rw [hcr, searchCr, if_pos rfl, crField_withCrField, if_pos rfl]
    · rw [hcr, searchCr, if_pos rfl, crField_withCrField, if_neg hk]

/-- An index that a search finds is that of an entry. -/
theorem lookup_hit_lt {s : State} {ea : Word} {j : Nat} {e : TlbEntry} (h : s.lookup ea = .hit j e) : j < 64 := by
  have hmem : (j, e) ∈ matchingEntries s.pid8 ea 0 s.tlb.toList := by simp [lookup_eq_hit_iff.1 h]
  exact (mem_matchingEntries_tlb.1 hmem).1

section
variable {s : State} (hpr : s.prBit = false) {ra rb : Reg} (rt : Reg) (rc : Bool)
include hpr

theorem exec_tlbsx_hit {j : Nat} {e : TlbEntry} (h : s.lookup (s.eaX ra rb) = .hit j e) : exec (.tlbsx rt ra rb rc) s =
    .next ((State.setReg { s with cr := searchCr s rc true } rt (BitVec.ofNat 32 j)).advance) := by
  refine (privileged_supervisor hpr _).trans ?_
  rw [h]
  rfl

theorem exec_tlbsx_miss (h : s.lookup (s.eaX ra rb) = .miss) : exec (.tlbsx rt ra rb rc) s =
    .next (((State.setReg { s with cr := searchCr s rc false } rt (s.free 0)).drawn 1).advance) := by
  refine (privileged_supervisor hpr _).trans ?_
  rw [h]
  rfl

theorem exec_tlbsx_duplicate (h : s.lookup (s.eaX ra rb) = .duplicate) :
    exec (.tlbsx rt ra rb rc) s = .refused .duplicateTlbEntries := by
  refine (privileged_supervisor hpr _).trans ?_
  rw [h]

end

/-- Settles O45: the index that a search finds is below 64, so RT holds it. -/
theorem tlbSearchInstruction : Obligations.TlbSearchInstruction := by
  unfold Obligations.TlbSearchInstruction
  intro s rt ra rb rc hpr records
  have hregs (c v : Word) : RegsKept [rt] s (State.setReg { s with cr := c } rt v) := fun q hq =>
    reg_setReg_other _ _ _ _ (by simpa using hq)
  refine ⟨fun j e hit => ?hit, fun miss => ?miss, exec_tlbsx_duplicate hpr rt rc⟩
  case hit =>
    obtain ⟨hclear, hrecord⟩ := searchCr_records (s := s) (rc := rc) (found := true)
      (t := (State.setReg { s with cr := searchCr s rc true } rt (BitVec.ofNat 32 j)).advance) rfl
    refine ⟨_, exec_tlbsx_hit hpr rt rc hit, ?_, hregs _ _, hclear, hrecord, rfl⟩
    have hj := lookup_hit_lt hit
    rw [reg_advance, reg_setReg_same, BitVec.toNat_ofNat]
    omega
  case miss =>
    obtain ⟨hclear, hrecord⟩ := searchCr_records (s := s) (rc := rc) (found := false)
      (t := ((State.setReg { s with cr := searchCr s rc false } rt (s.free 0)).drawn 1).advance) rfl
    exact ⟨_, exec_tlbsx_miss hpr rt rc miss, hregs _ _, hclear, hrecord, rfl⟩

end Sys2Proof.Proofs
end

section
/-! PROOF. What problem state cannot change (60_exceptions.md R620 to R622): an instruction that is not privileged writes user
registers and storage only, a privileged one takes an interrupt. -/
namespace Sys2Proof.Proofs
open Sys2Proof Sys2Proof.Machine Sys2Proof.Laws

/-! ## States that differ in what problem state may change -/

/-- Supervisor state is that of `s`. -/
def Confined (s t : State) : Prop :=
  t = { s with gpr := t.gpr, cr := t.cr, xer := t.xer, lr := t.lr, ctr := t.ctr, usprg0 := t.usprg0, mem := t.mem,
               reserve := t.reserve, pc := t.pc, hostLog := t.hostLog, freeCount := t.freeCount }

/-- Every next state but those in which an interrupt was taken has the supervisor state of `s`. -/
def Confines (s : State) (r : Result) : Prop := NextHas (fun t => t.entry = none → Confined s t) r

section
variable {s u : State}

theorem Confined.markCr0 (h : Confined s u) (nr : Bool) : Confined s (u.markCr0 nr) := by
  rw [h]
  cases nr <;> rfl

theorem Confined.advance (h : Confined s u) : Confined s u.advance := by
  rw [h]
  rfl

theorem Confined.finish (h : Confined s u) (nr : Bool) : Confined s (u.finish nr) := (h.markCr0 nr).advance

theorem Confined.setReg (h : Confined s u) (r : Reg) (v : Word) : Confined s (u.setReg r v) := by
  rw [h]
  rfl

theorem Confined.freeRegs (h : Confined s u) (rs : List Reg) : Confined s (u.freeRegs rs) := by
  rw [freeRegs_eq, h]
  rfl

theorem confines_next (h : Confined s u) : Confines s (.next u) := .next fun _ => h

theorem confines_finish {nr : Bool} (h : Confined s u) : Confines s (.next (u.finish nr)) := confines_next (h.finish nr)

/-- An interrupt is taken at its vector. -/
theorem takesSome_confined : ∀ t, TakesSome s t → t.entry = none → Confined s t := by
  rintro t ⟨k, saved, hentry, -⟩ hnone
  exact absurd (hentry.symm.trans hnone) nofun

theorem confines_unlessStopped {stop : Option Result} {effect : Result} (hstop : StopsByInterrupt s stop)
    (h : Confines s effect) : Confines s (unlessStopped stop effect) := nextHas_unlessStopped hstop takesSome_confined h

/-- A privileged instruction takes an interrupt in problem state, whatever its effect is in supervisor state. -/
theorem confines_privileged (hpr : s.prBit = true) (effect : Result) : Confines s (privileged s effect) := by
  rw [privileged_problem hpr]
  exact .next (takesSome_confined _ (takesSome_programInterrupt _ s))

theorem confines_privilegedIf (hpr : s.prBit = true) {p : Bool} {effect : Result} (h : p = false → Confines s effect) :
    Confines s (privilegedIf p s effect) := by
  cases p
  · exact h rfl
  · exact confines_privileged hpr effect

end

/-! ## The forms -/

section
variable (s : State)

theorem confines_writeResult (rt : Reg) (r : Word) (ca ov : Option Bool) (rc : Bool) :
    Confines s (.next (s.writeResult rt r ca ov rc)) := confines_next rfl

theorem confines_loadForm (rt : Reg) (ea : Word) (n : Nat) (extend : Word → Word) (nr : Bool) :
    Confines s (loadForm rt ea n extend nr s) := confines_unlessStopped (dataStop_stops ..) (confines_finish rfl)

theorem confines_loadUpdateForm (rt ra : Reg) (ea : Word) (n : Nat) (extend : Word → Word) (nr : Bool) :
    Confines s (loadUpdateForm rt ra ea n extend nr s) :=
  confines_unlessStopped (dataStop_stops ..) (confines_finish (by split <;> rfl))

theorem confines_storeForm (ea : Word) (n : Nat) (v : Word) (nr : Bool) : Confines s (storeForm ea n v nr s) :=
  confines_unlessStopped (dataStop_stops ..) (confines_finish rfl)

theorem confines_storeUpdateForm (ra : Reg) (ea : Word) (n : Nat) (v : Word) (nr : Bool) :
    Confines s (storeUpdateForm ra ea n v nr s) :=
  confines_unlessStopped (dataStop_stops ..) (confines_finish (by split <;> rfl))

theorem confines_execLmw (rt ra : Reg) (d : BitVec 16) : Confines s (execLmw rt ra d s) := by
  refine confines_unlessStopped (dataStop_stops ..) (confines_next (Confined.advance (Confined.freeRegs ?_ _)))
  rfl

theorem confines_stringLoadForm (rt : Reg) (bases : List Reg) (ea : Word) (count : Nat) (nr : Bool) :
    Confines s (stringLoadForm rt bases ea count nr s) := by
  refine confines_unlessStopped (dataStop_stops ..) (confines_finish (Confined.freeRegs ?_ _))
  rfl

theorem confines_execLwarx (rt ra rb : Reg) (nr : Bool) : Confines s (execLwarx rt ra rb nr s) :=
  confines_unlessStopped (alignmentStop_stops ..) (confines_unlessStopped (busStop_stops ..) (confines_finish rfl))

theorem confines_execStwcx (rs ra rb : Reg) : Confines s (execStwcx rs ra rb s) := by
  refine confines_unlessStopped (alignmentStop_stops ..) ?_
  split
  · exact confines_unlessStopped (busStop_stops ..) (confines_next rfl)
  · exact confines_next rfl

theorem confines_cacheForm (store : Bool) (ea : Word) (nr : Bool) : Confines s (cacheForm store ea nr s) :=
  confines_unlessStopped (translationStopAt_stops ..) (confines_finish rfl)

theorem confines_execDcbz (ra rb : Reg) (nr : Bool) : Confines s (execDcbz ra rb nr s) := by
  refine confines_unlessStopped (translationStopAt_stops ..) ?_
  split
  · exact .next (takesSome_confined _ (takesSome_alignmentInterrupt _ s))
  · exact confines_unlessStopped (busStop_stops ..) (confines_finish rfl)

theorem confines_divideForm (rt : Reg) (quotient : Option Word) (oe rc : Bool) : Confines s (divideForm rt quotient oe rc s) := by
  cases quotient <;> exact confines_next rfl

theorem confines_execBcctr (bo bi : BitVec 5) (lk : Bool) : Confines s (execBcctr bo bi lk s) := by
  unfold execBcctr
  split <;> exact confines_next rfl

theorem confines_readForm (rt : Reg) (v : Option Word) (nr : Bool) : Confines s (readForm rt v nr s) := by
  cases v <;> exact confines_finish rfl

theorem confines_execTw (tcond : BitVec 5) (ra rb : Reg) (nr : Bool) : Confines s (execTw tcond ra rb nr s) := by
  unfold execTw
  split
  · exact (nextHas_trap s).mono takesSome_confined
  · exact confines_finish rfl

theorem confines_execTwi (tcond : BitVec 5) (ra : Reg) (im : BitVec 16) : Confines s (execTwi tcond ra im s) := by
  unfold execTwi
  split
  · exact (nextHas_trap s).mono takesSome_confined
  · exact confines_next rfl

end

/-! ## mtspr -/

/-- The registers of the table whose number is not privileged: XER, LR, CTR and USPRG0. -/
theorem sprWriter_confined : ∀ p ∈ sprWriters, p.1.testBit 4 = false → ∀ v (s : State), Confined s (p.2 v s) := by
  simp only [sprWriters, List.forall_mem_cons, List.not_mem_nil, false_implies, implies_true, and_true]
  refine ⟨fun _ _ _ => rfl, fun _ _ _ => rfl, fun _ _ _ => rfl, ?srr0, ?srr1, fun _ _ _ => rfl, ?privileged⟩
  case privileged => and_intros <;> exact fun h => absurd h (by decide)
  case srr0 | srr1 => exact fun h => absurd h (by decide)

theorem confined_writeSpr {n : Nat} (hn : n.testBit 4 = false) (v : Word) (s : State) : Confined s (writeSpr n v s) := by
  unfold writeSpr
  split
  · rename_i f hf
    obtain ⟨l₁, l₂, hl, -⟩ := List.lookup_eq_some_iff.1 hf
    exact sprWriter_confined (n, f) (by simp [hl]) hn v s
  · rfl

theorem confines_execMtspr {s : State} (hpr : s.prBit = true) (rs : Reg) (sprn : BitVec 10) (nr : Bool) :
    Confines s (execMtspr rs sprn nr s) :=
  confines_privilegedIf hpr fun hn => confines_next ((confined_writeSpr hn _ s).markCr0 nr)

/-! ## Every instruction -/

theorem confines_exec (i : Instr) {s : State} (hpr : s.prBit = true) : Confines s (exec i s) := by
  cases i with
  | lbz | lbzx | lha | lhax | lhz | lhzx | lwz | lwzx | lhbrx | lwbrx => exact confines_loadForm ..
  | lbzu | lbzux | lhau | lhaux | lhzu | lhzux | lwzu | lwzux => exact confines_loadUpdateForm ..
  | stb | stbx | sth | sthx | stw | stwx | sthbrx | stwbrx => exact confines_storeForm ..
  | stbu | stbux | sthu | sthux | stwu | stwux => exact confines_storeUpdateForm ..
  | lmw => exact confines_execLmw ..
  | stmw => exact confines_unlessStopped (dataStop_stops ..) (confines_next rfl)
  | lswi | lswx => exact confines_stringLoadForm ..
  | stswi | stswx => exact confines_unlessStopped (dataStop_stops ..) (confines_finish rfl)
  | lwarx => exact confines_execLwarx ..
  | stwcx => exact confines_execStwcx ..
  | dcbz => exact confines_execDcbz ..
  | add | addc | adde | addi | addic | addicRc | addis | addme | addze | neg | subf | subfc | subfe | subfic | subfme
  | subfze | mulhw | mulhwu | mulli | mullw => exact confines_writeResult ..
  | divw | divwu => exact confines_divideForm ..
  | macchw | macchws | macchwsu | macchwu | machhw | machhws | machhwsu | machhwu | maclhw | maclhws | maclhwsu | maclhwu
  | nmacchw | nmacchws | nmachhw | nmachhws | nmaclhw | nmaclhws | mulchw | mulchwu | mulhhw | mulhhwu | mullhw
  | mullhwu => exact confines_writeResult ..
  | and | andc | andi | andis | cntlzw | eqv | extsb | extsh | nand | nor | or | orc | ori | oris | xor | xori | xoris
  | rlwimi | rlwinm | rlwnm | slw | sraw | srawi | srw => exact confines_writeResult ..
  | cmp | cmpi | cmpl | cmpli | crand | crandc | creqv | crnand | crnor | cror | crorc | crxor | mcrf | mtcrf | mcrxr | mfcr =>
    exact confines_finish rfl
  | b | bc | bclr => exact confines_next rfl
  | bcctr => exact confines_execBcctr ..
  | dcba | dcbt | dcbtst | icbt | eieio | isync | sync => exact confines_finish rfl
  | dcbf | dcbst | icbi => exact confines_cacheForm ..
  | dcbi | dccci | dcread | icread | iccci | mfmsr | mtmsr | wrtee | wrteei | tlbia | tlbsync | tlbwe | tlbre | tlbsx | rfci | rfi
  | mfdcr | mtdcr => exact confines_privileged hpr _
  | mfspr => exact confines_privilegedIf hpr fun _ => confines_readForm ..
  | mftb => exact confines_readForm ..
  | mtspr => exact confines_execMtspr hpr ..
  | sc => exact .next (takesSome_confined _ (takesSome_systemCallInterrupt s))
  | tw => exact confines_execTw ..
  | twi => exact confines_execTwi ..

/-- Settles O52. -/
theorem problemStateIsConfined : Obligations.ProblemStateIsConfined := by
  unfold Obligations.ProblemStateIsConfined
  exact fun i s t hpr _ ht hentry => (confines_exec i hpr).of_eq_next ht hentry

end Sys2Proof.Proofs
end

section
/-! PROOF. The step outside internal debug mode (60_exceptions.md R610, R616, R618): a pending interrupt in its priority, the wait
state, or the instruction fetched at pc. -/
namespace Sys2Proof.Proofs
open Sys2Proof Sys2Proof.Machine Sys2Proof.Laws

/-! ## The boundary -/

section
variable {s u t : State}

/-- A step without a reset request is the boundary after the host's event and the ticks of its input. -/
theorem step_eq_boundary (hreset : (s.inputs.headD HostInput.idle).reset = none)
    (hu : u = recordUnconditional (s.inputs.headD HostInput.idle).unconditionalDebug
      (ticks (s.inputs.headD HostInput.idle).ticks { s with inputs := s.inputs.tail, entry := none })) :
    step s = boundary (s.inputs.headD HostInput.idle) u := by
  rw [hu, step, hreset]

theorem debugPending_eq_false (h : u.idmBit = false) (bits : Word) : u.debugPending bits = false := by
  simp [State.debugPending, internalDebug_eq_false h]

/-- Outside internal debug mode the five asynchronous interrupts that are left, in the order of R618. -/
theorem pendingInterrupts_of_idmOff (h : u.idmBit = false) (input : HostInput) : (pendingInterrupts input u).head? =
    if u.ceBit = true ∧ input.critical = true then some .criticalInput
    else if u.ceBit = true ∧ bitOf u.tsr 1 = true ∧ bitOf u.tcr 4 = true then some .watchdog
    else if u.eeBit = true ∧ input.external = true then some .external
    else if u.eeBit = true ∧ bitOf u.tsr 5 = true ∧ bitOf u.tcr 8 = true then some .fixedTimer
    else if u.eeBit = true ∧ bitOf u.tsr 4 = true ∧ bitOf u.tcr 5 = true then some .intervalTimer
    else none := by
  have hhead (p : Prop) [Decidable p] (k : Interrupt) (ks : List Interrupt) :
      ((if p then [k] else []) ++ ks).head? = if p then some k else ks.head? := by split <;> rfl
  have hlast (p : Prop) [Decidable p] (k : Interrupt) :
      (if p then [k] else []).head? = if p then some k else none := by split <;> rfl
  simp only [pendingInterrupts, debugPending_eq_false h, Bool.false_eq_true, if_false, List.nil_append, List.append_nil,
    List.append_assoc, hhead, hlast, Bool.and_eq_true, and_assoc]

/-- Settles O9. -/
theorem asynchronousInterruptsInOrder : Obligations.AsynchronousInterruptsInOrder := by
  unfold Obligations.AsynchronousInterruptsInOrder
  intro s u hreset hu hdebug hidm k hk
  rw [← pendingInterrupts_of_idmOff hidm, List.head?_eq_some_iff] at hk
  obtain ⟨ks, hpending⟩ := hk
  have hidm' : (takeInterrupt k u.pc u).idmBit = false := by rwa [State.idmBit, takeInterrupt_dbcr0]
  refine ⟨takeInterrupt k u.pc u, ?_, takes_takeInterrupt .., takeInterrupt_esr .., takeInterrupt_dear .., takeInterrupt_dbsr ..⟩
  rw [step_eq_boundary hreset hu, boundary, hdebug]
  simp only [hpending, recordException_of_idmOff hidm']

/-- Settles O10. -/
theorem waitStateWaits : Obligations.WaitStateWaits := by
  unfold Obligations.WaitStateWaits
  intro s u hreset hu hdebug hidm hpending hwe
  have hstep : step s = if u.waitsForEver then .fault .halted else .next u := by
    rw [step_eq_boundary hreset hu, boundary, hdebug]
    simp only [hpending, hwe, if_true]
  have hforever : u.waitsForEver = (!u.eeBit && !u.ceBit) := by simp [State.waitsForEver, internalDebug_eq_false hidm]
  rw [hstep, hforever]
  refine ⟨fun hee hce => by simp [hee, hce], ?_⟩
  rintro (h | h) <;> simp [h]

/-! ## The instruction at pc -/

/-- Outside internal debug mode nothing happens before an instruction. -/
theorem beforeInstruction_of_idmOff (h : u.idmBit = false) (events : Word) (go : State → Result) :
    beforeInstruction events u go = go u := by simp [beforeInstruction, internalDebug_eq_false h]

/-- What the debug events of an instruction change. -/
theorem afterInstruction_frame (dac : Word) (t : State) :
    afterInstruction dac t = { t with dbsr := (afterInstruction dac t).dbsr } := by
  have hexception (v : State) : recordException v = { v with dbsr := (recordException v).dbsr } := by
    unfold recordException
    split
    · rfl
    · split
      · exact recordDebugEvents_frame ..
      · rfl
  unfold afterInstruction
  rw [hexception]
  split
  · rw [recordDebugEvents_frame]
  · rfl

theorem afterInstruction_of_idmOff (h : t.idmBit = false) (dac : Word) : afterInstruction dac t = t := by
  simp [afterInstruction, internalDebug_eq_false h, recordException_of_idmOff h]

theorem executeInstr_of_idmOff {i : Instr} (hidm : s.idmBit = false) (h : exec i s = .next t) :
    executeInstr i s = .next (afterInstruction (dacEvents i s t) t) := by
  rw [executeInstr, beforeInstruction_of_idmOff hidm, h]
  simp only [underCompares_off (internalDebug_eq_false hidm)]

/-- Settles O6. -/
theorem stepRunsTheDecodedInstruction : Obligations.StepRunsTheDecodedInstruction := by
  unfold Obligations.StepRunsTheDecodedInstruction
  intro s u bytes rest i hreach hfetch hdecode
  have ⟨_, _, _, _, _, hidm⟩ := hreach
  obtain ⟨log, hlog⟩ := afterFetch_eq_log u
  have hidm' : u.afterFetch.idmBit = false := by rwa [hlog]
  have hstep : step s = executeInstr i u.afterFetch := by
    rw [step_of_reachesFetch hreach, executeNext, beforeInstruction_of_idmOff hidm, hfetch]
    simp only [hdecode]
  rw [hstep]
  refine ⟨fun ra little hplace => ?log, fun t ht => ?completes, fun f hf => ?fault, fun r hr => ?refused⟩
  case fault => simp only [executeInstr, beforeInstruction_of_idmOff hidm', hf]
  case refused => simp only [executeInstr, beforeInstruction_of_idmOff hidm', hr]
  case log =>
    rw [State.afterFetch, hplace]
    dsimp only
    split <;> rfl
  case completes =>
    rw [executeInstr_of_idmOff hidm' ht]
    exact ⟨_, rfl, fun h => afterInstruction_of_idmOff h _, afterInstruction_frame ..⟩

/-! ## A fetch that fails -/

/-- The step whose fetch fails with an interrupt ends with it, unless it records the exception event. -/
theorem step_fetchInterrupt (h : ReachesFetch s u) (hfetch : u.fetch = .error (.next t)) (hdbcr0 : t.dbcr0 = u.dbcr0) :
    step s = .next t := by
  have ⟨_, _, _, _, _, hidm⟩ := h
  have hidm' : t.idmBit = false := by rwa [State.idmBit, hdbcr0]
  rw [step_of_reachesFetch h, executeNext, beforeInstruction_of_idmOff hidm, hfetch]
  simp only [tookInterrupt, recordException_of_idmOff hidm']

theorem step_fetchRefusal {r : Refusal} (h : ReachesFetch s u) (hfetch : u.fetch = .error (.refused r)) :
    step s = .refused r := by
  have ⟨_, _, _, _, _, hidm⟩ := h
  rw [step_of_reachesFetch h, executeNext, beforeInstruction_of_idmOff hidm, hfetch]
  rfl

theorem fetch_stopped {r : Result} (h : u.fetchPlace = .stopped r) : u.fetch = .error r := by rw [State.fetch, h]

/-- A word with a byte in a hole, or at whose first byte a device does not answer word loads, is a bus error. -/
theorem busError_word {ra : Word} (h : (∃ k, k < 4 ∧ u.isHole (ra + BitVec.ofNat 32 k) = true) ∨
    ∃ loads stores, u.regionKind ra = some (.device loads stores) ∧ 4 ∉ loads) :
    u.busError false (wordRealAddresses ra) = true := by
  rw [State.busError, Bool.or_eq_true]
  refine h.imp (fun ⟨k, hk, hhole⟩ => ?_) (fun ⟨loads, stores, hkind, hwidth⟩ => ?_)
  · exact List.any_eq_true.2 ⟨_, mem_byteAddresses hk, hhole⟩
  · have hfirst : (wordRealAddresses ra).head? = some ra := by
      simp [wordRealAddresses, byteAddresses, List.range_succ_eq_map]
    have hlen : (wordRealAddresses ra).length = 4 := by simp [wordRealAddresses, byteAddresses]
    rw [hfirst, hlen, Option.any_some, refusesWidth_iff]
    exact ⟨loads, stores, hkind, hwidth⟩

end

/-- Settles O8: each clause names the place at which the fetch stops. -/
theorem failingFetchesTrap : Obligations.FailingFetchesTrap := by
  unfold Obligations.FailingFetchesTrap
  intro s u hreach
  refine ⟨fun hir hmiss => ?miss, fun hir hdup => ?duplicate, fun j e hir hhit hzone => ?zone,
    fun j e hir hhit hzone hdenied => ?denied, fun ra little hplace herror => ?bus⟩
  case miss =>
    have hplace : u.fetchPlace = .stopped (.next (instructionTlbMissInterrupt u)) := by simp [State.fetchPlace, hir, hmiss]
    exact ⟨_, step_fetchInterrupt hreach (fetch_stopped hplace) (takeInterrupt_dbcr0 ..), takes_takeInterrupt ..,
      takeInterrupt_esr .., takeInterrupt_dear .., takeInterrupt_dbsr ..⟩
  case duplicate =>
    have hplace : u.fetchPlace = .stopped (.refused .duplicateTlbEntries) := by simp [State.fetchPlace, hir, hdup]
    exact step_fetchRefusal hreach (fetch_stopped hplace)
  case zone =>
    have hplace : u.fetchPlace = .stopped (.next (instructionStorageInterrupt true u)) := by
      simp [State.fetchPlace, hir, hhit, hzone]
    exact ⟨_, step_fetchInterrupt hreach (fetch_stopped hplace) (takeInterrupt_dbcr0 ..), takes_of_agree rfl,
      takeInterrupt_esr .., takeInterrupt_dear ..⟩
  case denied =>
    have hplace : u.fetchPlace = .stopped (.next (instructionStorageInterrupt false u)) := by
      rcases hdenied with ⟨hex, hover⟩ | hg
      · simp [State.fetchPlace, hir, hhit, hzone, hex, hover]
      · simp [State.fetchPlace, hir, hhit, hzone, hg]
    exact ⟨_, step_fetchInterrupt hreach (fetch_stopped hplace) (takeInterrupt_dbcr0 ..), takes_of_agree rfl,
      takeInterrupt_esr .., takeInterrupt_dear ..⟩
  case bus =>
    have hfetch : u.fetch = .error (if u.meBit then .next (instructionMachineCheck u) else .refused .fetchBusError) := by
      simp [State.fetch, hplace, busError_word herror]
    refine ⟨fun hme => ?_, fun hme => ?_⟩
    · rw [hme, if_pos rfl] at hfetch
      exact ⟨_, step_fetchInterrupt hreach hfetch (takeInterrupt_dbcr0 ..), takes_of_agree rfl, takeInterrupt_esr ..,
        takeInterrupt_dear .., takeInterrupt_dbsr ..⟩
    · rw [hme, if_neg (by decide)] at hfetch
      exact step_fetchRefusal hreach hfetch

end Sys2Proof.Proofs
end

section
/-! PROOF. The checks of a storage reference in the order of its bytes (20_memory.md R149, R150, 60_exceptions.md R619): the first
byte that translation or protection stops, the alignment, the bus. -/
namespace Sys2Proof.Proofs
open Sys2Proof Sys2Proof.Machine Sys2Proof.Laws

/-! ## The bytes an instruction accesses -/

/-- `ks` are the numbers of the bytes that the instruction accesses, of an operand of n bytes, in increasing order. -/
def AccessesBytes (i : Instr) (s : State) (n : Nat) (ks : List Nat) : Prop :=
  ks.Pairwise (· < ·) ∧ ∀ k, k ∈ ks ↔ k < n ∧ ¬SkipsByte i s k

/-- What stops the translation of the accessed bytes, in their order, is the outcome of the instruction. -/
def TranslatesInOrder (i : Instr) (s : State) (store : Bool) (ea : Word) (n : Nat) : Prop :=
  ∃ ks, AccessesBytes i s n ks ∧ ∀ r, translationStop s store (ks.map (byteAddress ea)) = some r → exec i s = r

/-- The same of what stops translation or the bus, the single accesses being those of elements of w bytes. -/
def ChecksInOrder (i : Instr) (s : State) (store : Bool) (ea : Word) (n w : Nat) : Prop :=
  ∃ ks parts, AccessesBytes i s n ks ∧ (parts.any (s.partFails store) = true ↔ ∃ k ∈ ks, FailsAt s store ea w k) ∧
    ∀ r, dataStop s store (ks.map (byteAddress ea)) parts = some r → exec i s = r

section
variable {i : Instr} {s : State} {store : Bool} {ea : Word} {n w : Nat} {r : Result}

theorem dataStop_of_translationStop {eas : List Word} {parts : List (Word × Nat)} (h : translationStop s store eas = some r) :
    dataStop s store eas parts = some r := by rw [dataStop, h]

theorem ChecksInOrder.translates (h : ChecksInOrder i s store ea n w) : TranslatesInOrder i s store ea n := by
  obtain ⟨ks, parts, haccess, -, hexec⟩ := h
  exact ⟨ks, haccess, fun r hr => hexec r (dataStop_of_translationStop hr)⟩

/-- The first byte that translation stops, of bytes in increasing order. -/
theorem translationStop_first {ks : List Nat} (hsorted : ks.Pairwise (· < ·)) {k : Nat} (hk : k ∈ ks)
    (hbefore : ∀ j ∈ ks, j < k → s.permitted store (byteAddress ea j) = true)
    (hstop : translationStopAt s store (byteAddress ea k) (byteAddress ea k) = some r) :
    translationStop s store (ks.map (byteAddress ea)) = some r := by
  induction ks with
  | nil => exact absurd hk List.not_mem_nil
  | cons j ks ih =>
    obtain ⟨hj, hks⟩ := List.pairwise_cons.1 hsorted
    rw [List.map_cons, translationStop]
    rcases List.mem_cons.1 hk with rfl | hmem
    · rw [hstop]
    · rw [translationStopAt_permitted (hbefore j List.mem_cons_self (hj k hmem))]
      exact ih hks hmem fun i hi => hbefore i (List.mem_cons_of_mem _ hi)

/-- The instruction ends as the first byte that is stopped says. -/
theorem TranslatesInOrder.exec_eq (h : TranslatesInOrder i s store ea n) {k : Nat} (hk : ReachesByte i s store ea n k)
    (hstop : translationStopAt s store (byteAddress ea k) (byteAddress ea k) = some r) : exec i s = r := by
  obtain ⟨ks, ⟨hsorted, hmem⟩, hexec⟩ := h
  obtain ⟨hlt, hskip, hbefore⟩ := hk
  exact hexec r (translationStop_first hsorted ((hmem k).2 ⟨hlt, hskip⟩)
    (fun j hj hjk => hbefore j hjk ((hmem j).1 hj).2) hstop)

/-- With MSR[ME] = 1 an access whose bytes are permitted and of which a single access fails is a data machine check. -/
theorem ChecksInOrder.exec_machineCheck (h : ChecksInOrder i s store ea n w) (hme : s.meBit = true)
    (hperm : ∀ k, k < n → ¬SkipsByte i s k → s.permitted store (byteAddress ea k) = true)
    (hfails : ∃ k, k < n ∧ ¬SkipsByte i s k ∧ FailsAt s store ea w k) : exec i s = .next (dataMachineCheck s) := by
  obtain ⟨ks, parts, ⟨-, hmem⟩, hparts, hexec⟩ := h
  obtain ⟨k, hk, hskip, hfail⟩ := hfails
  have hany := hparts.2 ⟨k, (hmem k).2 ⟨hk, hskip⟩, hfail⟩
  have hpermitted : ∀ a ∈ ks.map (byteAddress ea), s.permitted store a = true :=
    List.forall_mem_map.2 fun j hj => hperm j ((hmem j).1 hj).1 ((hmem j).1 hj).2
  refine hexec _ ?_
  rw [dataStop, translationStop_permitted hpermitted, busStop, hme, hany]
  rfl

/-! ## Bus errors of single accesses -/

theorem operandParts_fails (hn : 0 < n) :
    (operandParts ea n).any (s.partFails store) = true ↔ ∃ k ∈ List.range n, FailsAt s store ea n k := by
  have hrange : (∃ k ∈ List.range n, FailsAt s store ea n k) ↔ ∃ k, k < n ∧
      (if ea.toNat % n = 0 then s.partFails store (ea, n) else s.partFails store (byteAddress ea k, 1)) = true := by
    refine exists_congr fun k => ?_
    rw [List.mem_range]
    exact and_congr_right fun hk => failsAt_operand s store ea hk
  rw [hrange, operandParts]
  split
  · simp only [List.any_cons, List.any_nil, Bool.or_false]
    exact ⟨fun h => ⟨0, hn, h⟩, fun ⟨_, _, h⟩ => h⟩
  · simp [singleBytes, byteAddresses, byteAddress]

/-- An element of one byte is its byte. -/
theorem failsAt_one {k : Nat} : FailsAt s store ea 1 k ↔ s.partFails store (byteAddress ea k, 1) = true := by
  rw [partFails_iff _ _ _ _ Nat.one_pos]
  simp [FailsAt, Nat.mod_one, byteAddress]

theorem singleBytes_fails (ks : List Nat) :
    (singleBytes (ks.map (byteAddress ea))).any (s.partFails store) = true ↔ ∃ k ∈ ks, FailsAt s store ea 1 k := by
  simp only [failsAt_one, singleBytes, List.any_map, List.any_eq_true, Function.comp_apply]

/-- A byte of a word, by its number in the operand or in the word. -/
theorem failsAt_wordAt {j b : Nat} (hb : b < 4) : FailsAt s store ea 4 (4 * j + b) ↔ FailsAt s store (wordAt ea j) 4 b := by
  have hword : wordAt ea j = ea + BitVec.ofNat 32 ((4 * j + b) / 4 * 4) := by
    rw [wordAt, show (4 * j + b) / 4 * 4 = 4 * j by omega]
  have hbyte : wordAt ea j + BitVec.ofNat 32 b = ea + BitVec.ofNat 32 (4 * j + b) := byteAddress_wordAt ea j b
  have hfirst : wordAt ea j + BitVec.ofNat 32 (b / 4 * 4) = wordAt ea j := by
    rw [show b / 4 * 4 = 0 by omega]
    exact BitVec.add_zero _
  simp only [FailsAt, hfirst, hbyte, ← hword]

/-- The bytes of the words `js` of an operand. -/
def bytesOfWords (js : List Nat) : List Nat := js.flatMap fun j => (List.range 4).map (4 * j + ·)

theorem mem_bytesOfWords {js : List Nat} {k : Nat} : k ∈ bytesOfWords js ↔ k / 4 ∈ js := by
  rw [bytesOfWords, List.mem_flatMap]
  constructor
  · rintro ⟨j, hj, hk⟩
    obtain ⟨b, hb, rfl⟩ := List.mem_map.1 hk
    have := List.mem_range.1 hb
    rwa [show (4 * j + b) / 4 = j by omega]
  · exact fun hk => ⟨k / 4, hk, List.mem_map.2 ⟨k % 4, List.mem_range.2 (Nat.mod_lt _ (by decide)), Nat.div_add_mod k 4⟩⟩

theorem bytesOfWords_sorted {js : List Nat} (h : js.Pairwise (· < ·)) : (bytesOfWords js).Pairwise (· < ·) := by
  refine List.pairwise_flatMap.2 ⟨fun j _ => ?_, h.imp fun {i j} hij => ?_⟩
  · exact List.pairwise_map.2 (List.pairwise_lt_range.imp fun h => by omega)
  · intro x hx y hy
    obtain ⟨b, hb, rfl⟩ := List.mem_map.1 hx
    obtain ⟨c, -, rfl⟩ := List.mem_map.1 hy
    have := List.mem_range.1 hb
    omega

theorem wordsBytes_eq (js : List Nat) (register : Nat → Nat) :
    wordsBytes (js.map fun j => (register j, wordAt ea j)) = (bytesOfWords js).map (byteAddress ea) := by
  rw [wordsBytes, List.flatMap_map, bytesOfWords, List.map_flatMap]
  refine List.flatMap_congr fun j _ => ?_
  rw [byteAddresses, List.map_map]
  exact List.map_congr_left fun b _ => byteAddress_wordAt ea j b

theorem wordsParts_fails (js : List Nat) (register : Nat → Nat) :
    (wordsParts (js.map fun j => (register j, wordAt ea j))).any (s.partFails store) = true ↔
      ∃ k ∈ bytesOfWords js, FailsAt s store ea 4 k := by
  rw [wordsParts_map, List.any_flatMap, List.any_eq_true]
  constructor
  · rintro ⟨j, hj, hfail⟩
    obtain ⟨b, hb, hfail⟩ := (operandParts_fails (by decide)).1 hfail
    have hb' := List.mem_range.1 hb
    exact ⟨4 * j + b, mem_bytesOfWords.2 (by rwa [show (4 * j + b) / 4 = j by omega]), (failsAt_wordAt hb').2 hfail⟩
  · rintro ⟨k, hk, hfail⟩
    rw [← Nat.div_add_mod k 4] at hfail
    have hb := Nat.mod_lt k (show 0 < 4 by decide)
    exact ⟨k / 4, mem_bytesOfWords.1 hk, (operandParts_fails (by decide)).2 ⟨_, List.mem_range.2 hb, (failsAt_wordAt hb).1 hfail⟩⟩

/-! ## The scalar, multiple and string instructions -/

theorem accessesBytes_range (h : ∀ k, ¬SkipsByte i s k) : AccessesBytes i s n (List.range n) :=
  ⟨List.pairwise_lt_range, fun k => by simp [h k]⟩

theorem checksInOrder_of_unlessStopped {ks : List Nat} {parts : List (Word × Nat)}
    (haccess : AccessesBytes i s n ks) (hparts : parts.any (s.partFails store) = true ↔ ∃ k ∈ ks, FailsAt s store ea w k)
    (hexec : ∃ effect, exec i s = unlessStopped (dataStop s store (ks.map (byteAddress ea)) parts) effect) :
    ChecksInOrder i s store ea n w := by
  obtain ⟨effect, hexec⟩ := hexec
  refine ⟨ks, parts, haccess, hparts, fun r hr => ?_⟩
  rw [hexec, hr]
  rfl

/-- A reference of one operand. -/
theorem checksInOrder_operand {effect : Result} (hn : 0 < n) (hskip : ∀ k, ¬SkipsByte i s k)
    (hexec : exec i s = unlessStopped (dataStop s store (byteAddresses ea n) (operandParts ea n)) effect) :
    ChecksInOrder i s store ea n n :=
  checksInOrder_of_unlessStopped (accessesBytes_range hskip) (operandParts_fails hn) ⟨effect, hexec⟩

end

section
variable {s : State} {r ra rb : Reg} {d : BitVec 16} {nb : BitVec 5} {nr : Bool}

theorem checksInOrder_scalar : ∀ i ∈ scalarReferences r ra rb d nr, ∀ store ea n, dataReference i s = some (store, ea, n) →
    ChecksInOrder i s store ea n n := by
  simp only [scalarReferences, List.forall_mem_cons, List.not_mem_nil, false_implies, implies_true, and_true]
  and_intros
  all_goals
    rintro _ _ _ ⟨⟩
    exact checksInOrder_operand (by decide) (fun k => by simp [SkipsByte]) rfl

/-- The words that lmw reads are those whose bytes it does not skip. -/
theorem readsWord_iff {k : Nat} : readsWord r ra (k / 4) = true ↔ ¬SkipsByte (.lmw r ra d) s k := by
  have h31 : ra ≠ 31 ↔ ra.toNat ≠ 31 := by rw [Ne, ← BitVec.toNat_inj]; rfl
  have hskip : SkipsByte (.lmw r ra d) s k ↔ r.toNat + k / 4 = ra.toNat ∧ ra ≠ 31 := by simp [SkipsByte]
  rw [hskip, h31, readsWord]
  simp only [Bool.or_eq_true, decide_eq_true_eq]
  omega

theorem checksInOrder_lmw : ChecksInOrder (.lmw r ra d) s false (s.eaD ra d) (4 * (32 - r.toNat)) 4 := by
  have hexec : exec (.lmw r ra d) s = execLmw r ra d s := rfl
  refine checksInOrder_of_unlessStopped (ks := bytesOfWords ((List.range (32 - r.toNat)).filter (readsWord r ra)))
    ⟨bytesOfWords_sorted (List.pairwise_lt_range.filter _), fun k => ?_⟩ (wordsParts_fails _ (r.toNat + ·)) ?_
  · rw [mem_bytesOfWords, List.mem_filter, List.mem_range, readsWord_iff (s := s) (d := d)]
    exact and_congr_left fun _ => by omega
  · rw [hexec, execLmw, loadedWords_eq, wordsBytes_eq]
    exact ⟨_, rfl⟩

theorem checksInOrder_stmw : ChecksInOrder (.stmw r ra d) s true (s.eaD ra d) (4 * (32 - r.toNat)) 4 := by
  have hexec : exec (.stmw r ra d) s = execStmw r ra d s := rfl
  have hwords : multipleWords r (s.eaD ra d) = (List.range (32 - r.toNat)).map fun j => (r.toNat + j, wordAt (s.eaD ra d) j) := rfl
  refine checksInOrder_of_unlessStopped (ks := bytesOfWords (List.range (32 - r.toNat)))
    ⟨bytesOfWords_sorted List.pairwise_lt_range, fun k => ?_⟩ (wordsParts_fails _ (r.toNat + ·)) ?_
  · rw [mem_bytesOfWords, List.mem_range]
    simp only [SkipsByte, reduceCtorEq, false_and, exists_const, or_self, not_false_eq_true, and_true]
    omega
  · rw [hexec, execStmw, hwords, wordsBytes_eq]
    exact ⟨_, rfl⟩

/-- A string load reads the bytes that `SkipsByte` does not name. -/
theorem checksInOrder_stringLoad {i : Instr} {bases : List Reg} {ea : Word} {count : Nat}
    (hskip : ∀ k, SkipsByte i s k ↔ stringLoads r (bases.map (·.toNat)) count (stringReg r k) = false)
    (hexec : exec i s = stringLoadForm r bases ea count nr s) : ChecksInOrder i s false ea count 1 :=
  checksInOrder_of_unlessStopped (ks := stringBytes r (bases.map fun b : Reg => b.toNat) count)
    ⟨List.pairwise_lt_range.filter _, fun k => by simp [stringBytes, hskip]⟩ (singleBytes_fails _) ⟨_, hexec⟩

theorem checksInOrder_stringStore {i : Instr} {ea : Word} {count : Nat} (hskip : ∀ k, ¬SkipsByte i s k)
    (hexec : exec i s = stringStoreForm r ea count nr s) : ChecksInOrder i s true ea count 1 :=
  checksInOrder_of_unlessStopped (accessesBytes_range hskip) (singleBytes_fails _) ⟨_, hexec⟩

theorem checksInOrder_lswi : ChecksInOrder (.lswi r ra nb nr) s false (s.ra0 ra) (stringCount nb) 1 :=
  checksInOrder_stringLoad (bases := [ra]) (fun k => by simp [SkipsByte]) rfl

theorem checksInOrder_lswx : ChecksInOrder (.lswx r ra rb nr) s false (s.eaX ra rb) (xerTbc s.xer) 1 :=
  checksInOrder_stringLoad (bases := [ra, rb]) (fun k => by simp [SkipsByte]) rfl

theorem checksInOrder_stswi : ChecksInOrder (.stswi r ra nb nr) s true (s.ra0 ra) (stringCount nb) 1 :=
  checksInOrder_stringStore (fun k => by simp [SkipsByte]) rfl

theorem checksInOrder_stswx : ChecksInOrder (.stswx r ra rb nr) s true (s.eaX ra rb) (xerTbc s.xer) 1 :=
  checksInOrder_stringStore (fun k => by simp [SkipsByte]) rfl

theorem translatesInOrder_multiple : ∀ i ∈ multipleReferences r ra rb d nb nr, ∀ store ea n,
    dataReference i s = some (store, ea, n) → TranslatesInOrder i s store ea n := by
  simp only [multipleReferences, List.forall_mem_cons, List.not_mem_nil, false_implies, implies_true, and_true]
  refine ⟨?lmw, ?stmw, ?lswi, ?lswx, ?stswi, ?stswx⟩
  all_goals rintro _ _ _ ⟨⟩
  case lmw => exact checksInOrder_lmw.translates
  case stmw => exact checksInOrder_stmw.translates
  case lswi => exact checksInOrder_lswi.translates
  case lswx => exact checksInOrder_lswx.translates
  case stswi => exact checksInOrder_stswi.translates
  case stswx => exact checksInOrder_stswx.translates

end

/-! ## The other instructions that translate an operand address -/

/-- An instruction that checks its alignment translates the bytes of its operand first. -/
theorem translatesInOrder_of_alignmentStop {i : Instr} {s : State} {store : Bool} {ea : Word} {n : Nat}
    (hskip : ∀ k, ¬SkipsByte i s k)
    (hexec : ∃ effect, exec i s = unlessStopped (alignmentStop s store ea (byteAddresses ea n)) effect) :
    TranslatesInOrder i s store ea n := by
  obtain ⟨effect, hexec⟩ := hexec
  refine ⟨List.range n, accessesBytes_range hskip, fun r hr => ?_⟩
  have hr' : translationStop s store (byteAddresses ea n) = some r := hr
  rw [hexec, alignmentStop, hr']
  rfl

/-- An instruction that checks one address. -/
theorem translatesInOrder_of_translationStopAt {i : Instr} {s : State} {store : Bool} {ea : Word}
    (hskip : ∀ k, ¬SkipsByte i s k) (hexec : ∃ effect, exec i s = unlessStopped (translationStopAt s store ea ea) effect) :
    TranslatesInOrder i s store ea 1 := by
  obtain ⟨effect, hexec⟩ := hexec
  refine ⟨List.range 1, accessesBytes_range hskip, fun r hr => ?_⟩
  have hone : (List.range 1).map (byteAddress ea) = [ea] := byteAddresses_one ea
  rw [hone, translationStop] at hr
  rw [hexec]
  cases hstop : translationStopAt s store ea ea with
  | none => simp [hstop, translationStop] at hr
  | some q => simpa [hstop, unlessStopped] using hr

/-- An address and the first one of its 32-byte block are in one page and one region. -/
theorem extractLsb'_blockBase (ea : Word) {k n : Nat} (hk : 5 ≤ k) (hn : k + n ≤ 32) :
    (blockBase ea).extractLsb' k n = ea.extractLsb' k n := by
  refine BitVec.eq_of_getLsbD_eq fun i hi => ?_
  have hmask : (0xFFFFFFE0#32).getLsbD (k + i) = true := by
    have hall : ∀ j, j < 32 → 5 ≤ j → (0xFFFFFFE0#32).getLsbD j = true := by decide
    exact hall _ (by omega) (by omega)
  simp [blockBase, hi, hmask]

theorem lookup_blockBase (s : State) (ea : Word) : s.lookup (blockBase ea) = s.lookup ea := by
  have hentries : matchingEntries s.pid8 (blockBase ea) = matchingEntries s.pid8 ea := by
    funext k entries
    induction entries generalizing k with
    | nil => rfl
    | cons e entries ih =>
      have hcovers : e.covers s.pid8 (blockBase ea) = e.covers s.pid8 ea := by
        rw [TlbEntry.covers, extractLsb'_blockBase ea (by decide) (by decide)]
        rfl
      rw [matchingEntries, matchingEntries, hcovers, ih]
  rw [State.lookup, hentries]
  rfl

/-- Translation stops a block at its first address as it would at any other. -/
theorem translationStopAt_blockBase (s : State) (store : Bool) (dear ea : Word) :
    translationStopAt s store dear (blockBase ea) = translationStopAt s store dear ea := by
  have hregion : region (blockBase ea) = region ea := congrArg BitVec.toNat (extractLsb'_blockBase ea (by decide) (by decide))
  have hattributes : s.realDataAttributes (blockBase ea) = s.realDataAttributes ea := by
    simp only [State.realDataAttributes, hregion]
  unfold translationStopAt State.translateData
  rw [lookup_blockBase, hattributes]
  cases s.drBit with
  | false => cases s.u0Fault store (s.realDataAttributes ea) <;> rfl
  | true =>
    cases s.lookup ea with
    | miss | duplicate => rfl
    | hit j e =>
      simp only [if_true]
      cases s.zoneDenies e with
      | true => rfl
      | false =>
        cases store && !(e.wr || s.zoneOverrides e) with
        | true => rfl
        | false => cases s.u0Fault store e.attributes <;> rfl

section
variable {s : State} {r ra rb : Reg} {nr : Bool}

theorem translatesInOrder_dcbz : TranslatesInOrder (.dcbz ra rb nr) s true (s.eaX ra rb) 1 := by
  have hexec : exec (.dcbz ra rb nr) s = execDcbz ra rb nr s := rfl
  refine translatesInOrder_of_translationStopAt (fun k => by simp [SkipsByte]) ?_
  rw [hexec, execDcbz, translationStopAt_blockBase]
  exact ⟨_, rfl⟩

theorem translatesInOrder_other : ∀ i ∈ otherReferences r ra rb nr, ∀ store ea n,
    dataReference i s = some (store, ea, n) → TranslatesInOrder i s store ea n := by
  simp only [otherReferences, List.forall_mem_cons, List.not_mem_nil, false_implies, implies_true, and_true]
  refine ⟨?lwarx, ?stwcx, ?dcbf, ?dcbst, ?dcbz, ?icbi⟩
  all_goals rintro _ _ _ ⟨⟩
  case lwarx | stwcx => exact translatesInOrder_of_alignmentStop (fun k => by simp [SkipsByte]) ⟨_, rfl⟩
  case dcbf | dcbst | icbi => exact translatesInOrder_of_translationStopAt (fun k => by simp [SkipsByte]) ⟨_, rfl⟩
  case dcbz => exact translatesInOrder_dcbz

theorem translatesInOrder_privileged (hpr : s.prBit = false) : ∀ i ∈ privilegedReferences r ra rb nr, ∀ store ea n,
    dataReference i s = some (store, ea, n) → TranslatesInOrder i s store ea n := by
  simp only [privilegedReferences, List.forall_mem_cons, List.not_mem_nil, false_implies, implies_true, and_true]
  refine ⟨?dcbi, ?dccci, ?dcread, ?icread⟩
  all_goals rintro _ _ _ ⟨⟩
  case dcbi | dccci | icread =>
    exact translatesInOrder_of_translationStopAt (fun k => by simp [SkipsByte]) ⟨_, privileged_supervisor hpr _⟩
  case dcread =>
    refine translatesInOrder_of_alignmentStop (n := 1) (fun k => by simp [SkipsByte]) ?_
    rw [byteAddresses_one]
    exact ⟨_, privileged_supervisor hpr _⟩

end

/-- Every storage reference translates the bytes it accesses in their order. -/
theorem translatesInOrder_reference {s : State} {r ra rb : Reg} {d : BitVec 16} {nb : BitVec 5} {nr : Bool} {i : Instr}
    (hi : i ∈ scalarReferences r ra rb d nr ++ multipleReferences r ra rb d nb nr ++ otherReferences r ra rb nr ∨
      (i ∈ privilegedReferences r ra rb nr ∧ s.prBit = false))
    {store : Bool} {ea : Word} {n : Nat} (href : dataReference i s = some (store, ea, n)) : TranslatesInOrder i s store ea n := by
  rcases hi with hi | ⟨hi, hpr⟩
  · rcases List.mem_append.1 hi with hi | hi
    · rcases List.mem_append.1 hi with hi | hi
      · exact (checksInOrder_scalar i hi store ea n href).translates
      · exact translatesInOrder_multiple i hi store ea n href
    · exact translatesInOrder_other i hi store ea n href
  · exact translatesInOrder_privileged hpr i hi store ea n href

section
variable {s : State} {store : Bool} {dear ea : Word}

theorem translationStopAt_miss (h : s.translateData store ea = .miss) :
    translationStopAt s store dear ea = some (.next (dataTlbMissInterrupt dear store s)) := by rw [translationStopAt, h]

theorem translationStopAt_duplicate (h : s.translateData store ea = .duplicate) :
    translationStopAt s store dear ea = some (.refused .duplicateTlbEntries) := by rw [translationStopAt, h]

theorem translationStopAt_denied {zone u0 : Bool} (h : s.translateData store ea = .denied zone u0) :
    translationStopAt s store dear ea = some (.next (dataStorageInterrupt dear store zone u0 s)) := by rw [translationStopAt, h]

end

/-- Settles O19. -/
theorem dataTlbMissAtTheFirstByte : Obligations.DataTlbMissAtTheFirstByte := by
  unfold Obligations.DataTlbMissAtTheFirstByte
  intro s r ra rb d nb nr i hi store ea n k href hreach
  have htranslates := translatesInOrder_reference hi href
  refine ⟨fun hmiss => ?miss, fun hdup => htranslates.exec_eq hreach (translationStopAt_duplicate hdup)⟩
  case miss =>
    have hexec := htranslates.exec_eq hreach (translationStopAt_miss hmiss)
    refine ⟨_, hexec, takes_of_agree rfl, takeInterrupt_dear .., (takeInterrupt_esr ..).trans ?_, takeInterrupt_dbsr ..⟩
    cases store <;> rfl

/-- Settles O20. -/
theorem dataStorageAtTheFirstByte : Obligations.DataStorageAtTheFirstByte := by
  unfold Obligations.DataStorageAtTheFirstByte
  intro s r ra rb d nb nr i hi store zone u0 ea n k href hreach hdenied
  have hexec := (translatesInOrder_reference hi href).exec_eq hreach (translationStopAt_denied hdenied)
  refine ⟨_, hexec, takes_of_agree rfl, takeInterrupt_dear .., (takeInterrupt_esr ..).trans ?_, takeInterrupt_dbsr ..⟩
  cases store <;> cases zone <;> cases u0 <;> rfl

/-! ## Alignment -/

theorem alignmentStop_misaligned {s : State} {store : Bool} {ea : Word} {eas : List Word}
    (hperm : ∀ a ∈ eas, s.permitted store a = true) (h : misaligned ea = true) :
    alignmentStop s store ea eas = some (.next (alignmentInterrupt ea s)) := by
  simp [alignmentStop, translationStop_permitted hperm, h]

theorem permitted_byteAddresses {s : State} {store : Bool} {ea : Word} {n : Nat}
    (h : ∀ k, k < n → s.permitted store (ea + BitVec.ofNat 32 k) = true) : ∀ a ∈ byteAddresses ea n, s.permitted store a = true :=
  List.forall_mem_map.2 fun k hk => h k (List.mem_range.1 hk)

/-- An instruction that ends with the Alignment interrupt. -/
theorem runsTo_alignment {i : Instr} {s : State} {ea : Word} (h : exec i s = .next (alignmentInterrupt ea s)) :
    RunsTo i s fun t => Takes .alignment s.pc s t ∧ t.dear = ea ∧ t.esr = s.esr ∧ t.dbsr = s.dbsr :=
  ⟨_, h, takes_of_agree rfl, takeInterrupt_dear .., takeInterrupt_esr .., takeInterrupt_dbsr ..⟩

/-- Settles O21. -/
theorem alignmentInterrupts : Obligations.AlignmentInterrupts := by
  unfold Obligations.AlignmentInterrupts
  intro s r ra rb nr alignment allPermitted
  refine ⟨fun hmis => ⟨fun hperm => ?lwarx, fun hperm => ?stwcx, fun hpr hperm => ?dcread⟩, fun real a hreal hattr => ?dcbz⟩
  all_goals apply runsTo_alignment
  case lwarx =>
    have hexec : exec (.lwarx r ra rb nr) s = execLwarx r ra rb nr s := rfl
    rw [hexec, execLwarx, alignmentStop_misaligned (permitted_byteAddresses hperm) hmis]
    rfl
  case stwcx =>
    have hexec : exec (.stwcx r ra rb) s = execStwcx r ra rb s := rfl
    rw [hexec, execStwcx, alignmentStop_misaligned (permitted_byteAddresses hperm) hmis]
    rfl
  case dcread =>
    have hexec : exec (.dcread r ra rb nr) s = execDcread r ra rb nr s := rfl
    have hperm' := permitted_byteAddresses hperm
    rw [byteAddresses_one] at hperm'
    rw [hexec, execDcread, privileged_supervisor hpr, alignmentStop_misaligned hperm' hmis]
    rfl
  case dcbz =>
    have hexec : exec (.dcbz ra rb nr) s = execDcbz ra rb nr s := rfl
    have hreal' : s.translateData true (blockBase (s.eaX ra rb)) = .real real a := hreal
    have hrefuses : s.blockRefusesZero (blockBase (s.eaX ra rb)) = true := by
      rw [State.blockRefusesZero, hreal']
      simpa using hattr
    rw [hexec, execDcbz, translationStopAt, hreal', unlessStopped_none, hrefuses]
    rfl

end Sys2Proof.Proofs
end

section
/-! PROOF. Bus errors on data accesses (60_exceptions.md R632, 20_memory.md R133, R180, D8, D9, U11): the data machine check, and
the accesses that complete but for the bytes in error. -/
namespace Sys2Proof.Proofs
open Sys2Proof Sys2Proof.Machine Sys2Proof.Laws

/-! ## Accesses that nothing stops and no device answers -/

/-- Byte k from ea on, in elements of w bytes: permitted, of no device that answers, and in error only with MSR[ME] = 0. -/
def Plain (s : State) (store : Bool) (ea : Word) (w k : Nat) : Prop :=
  s.permitted store (byteAddress ea k) = true ∧
  (s.isDevice (s.realData store (byteAddress ea k)) = true → FailsAt s store ea w k) ∧
  (s.meBit = true → ¬FailsAt s store ea w k)

section
variable {s : State} {store : Bool} {ea : Word} {n w : Nat}

theorem plain_wordAt {j b : Nat} (hb : b < 4) : Plain s store ea 4 (4 * j + b) ↔ Plain s store (wordAt ea j) 4 b := by
  have haddress : byteAddress (wordAt ea j) b = byteAddress ea (4 * j + b) := byteAddress_wordAt ea j b
  rw [Plain, Plain, failsAt_wordAt hb, haddress]

/-- With MSR[ME] = 1 none of the single accesses fails. -/
theorem busStop_plain {ks : List Nat} {parts : List (Word × Nat)} (h : ∀ k ∈ ks, Plain s store ea w k)
    (hparts : parts.any (s.partFails store) = true ↔ ∃ k ∈ ks, FailsAt s store ea w k) : busStop s store parts = none := by
  have hnone : (s.meBit && parts.any (s.partFails store)) = false := by
    rw [Bool.and_eq_false_imp, ← Bool.not_eq_true]
    intro hme hany
    obtain ⟨k, hk, hfail⟩ := hparts.1 hany
    exact (h k hk).2.2 hme hfail
  rw [busStop, hnone]
  rfl

theorem dataStop_plain {ks : List Nat} {parts : List (Word × Nat)} (h : ∀ k ∈ ks, Plain s store ea w k)
    (hparts : parts.any (s.partFails store) = true ↔ ∃ k ∈ ks, FailsAt s store ea w k) :
    dataStop s store (ks.map (byteAddress ea)) parts = none := by
  have hperm : ∀ a ∈ ks.map (byteAddress ea), s.permitted store a = true := List.forall_mem_map.2 fun k hk => (h k hk).1
  rw [dataStop, translationStop_permitted hperm, busStop_plain h hparts]

/-- No device answers a single access of the operand. -/
theorem operandParts_silent (hn : 0 < n) (h : ∀ k, k < n → Plain s store ea n k) :
    ∀ p ∈ operandParts ea n, s.deviceAnswers store p = false := by
  have hsilent {p : Word × Nat} (hp : s.isDevice (s.realData store p.1) = true → s.partFails store p = true) :
      s.deviceAnswers store p = false := by
    rw [State.deviceAnswers, Bool.and_eq_false_imp, Bool.not_eq_false']
    exact hp
  have hfails {k : Nat} (hk : k < n) (hdev : s.isDevice (s.realData store (byteAddress ea k)) = true) :=
    (failsAt_operand s store ea hk).1 ((h k hk).2.1 hdev)
  intro p hp
  unfold operandParts at hp
  split at hp
  next haligned =>
    obtain rfl := List.mem_singleton.1 hp
    refine hsilent fun hdev => ?_
    have hfail := hfails hn (by rwa [byteAddress, BitVec.add_zero])
    rwa [if_pos haligned] at hfail
  next haligned =>
    obtain ⟨a, ha, rfl⟩ := List.mem_map.1 hp
    obtain ⟨k, hk, rfl⟩ := List.mem_map.1 ha
    refine hsilent fun hdev => ?_
    have hfail := hfails (List.mem_range.1 hk) hdev
    rwa [if_neg haligned] at hfail

theorem logLoads_silent (log : List HostAccess) {parts : List (Word × Nat)} (h : ∀ p ∈ parts, s.deviceAnswers false p = false) :
    s.logLoads log parts = log := by
  unfold State.logLoads
  induction parts generalizing log with
  | nil => rfl
  | cons p ps ih =>
    have hp : s.logLoad log p = log := by simp [State.logLoad, h p List.mem_cons_self]
    rw [List.foldl_cons, hp]
    exact ih log fun q hq => h q (List.mem_cons_of_mem _ hq)

theorem logStores_silent (log : List HostAccess) {parts : List (Word × List Byte)}
    (h : ∀ p ∈ parts, s.deviceAnswers true (p.1, p.2.length) = false) : parts.foldl s.logStore log = log := by
  induction parts generalizing log with
  | nil => rfl
  | cons p ps ih =>
    have hp : s.logStore log p = log := by simp [State.logStore, h p List.mem_cons_self]
    rw [List.foldl_cons, hp]
    exact ih log fun q hq => h q (List.mem_cons_of_mem _ hq)

/-- A byte whose single access does not fail is read from storage. -/
theorem loadByte_plain (log : List HostAccess) (k : Nat) {i : Nat} (hi : i < n) (h : ∀ k, k < n → Plain s false ea n k)
    (hok : ¬FailsAt s false ea n i) : s.loadByte log k ea n i = s.byteAt false (byteAddress ea i) := by
  have hdevice {j : Nat} (hj : j < n) (hok : ¬FailsAt s false ea n j) : s.isDevice (s.realData false (byteAddress ea j)) = false :=
    Bool.eq_false_iff.2 fun hdev => hok ((h j hj).2.1 hdev)
  have hpart := mt (failsAt_operand s false ea hi).2 hok
  rw [State.loadByte]
  split
  next haligned =>
    rw [if_pos haligned, Bool.not_eq_true] at hpart
    have hfirst : ¬FailsAt s false ea n 0 := by
      rw [failsAt_operand s false ea (by omega), if_pos haligned, hpart]
      exact Bool.false_ne_true
    have hdev := hdevice (by omega) hfirst
    rw [byteAddress, BitVec.add_zero] at hdev
    simp [State.loadPart, hpart, hdev, State.byteAt, byteAddress]
  next haligned =>
    rw [if_neg haligned, Bool.not_eq_true] at hpart
    have hdev := hdevice hi hok
    rw [byteAddress] at hdev
    simp [State.loadPart, hpart, hdev, State.byteAt, byteAddress]

/-! ## The data machine check -/

/-- An instruction that ends with the data machine check. -/
theorem runsTo_machineCheck {i : Instr} (h : exec i s = .next (dataMachineCheck s)) :
    RunsTo i s fun t => Takes .machineCheckData (s.pc + 4) s t ∧ SyndromeKept s t :=
  ⟨_, h, takes_takeInterrupt .., takeInterrupt_esr .., takeInterrupt_dear .., takeInterrupt_dbsr ..⟩

/-- lwarx, and stwcx. with a reservation, of an aligned operand check it as a load or a store does. -/
theorem checksInOrder_aligned {i : Instr} (hskip : ∀ k, ¬SkipsByte i s k) (hal : misaligned ea = false)
    (hexec : ∃ effect, exec i s = unlessStopped (alignmentStop s store ea (byteAddresses ea 4))
      (unlessStopped (busStop s store (operandParts ea 4)) effect)) : ChecksInOrder i s store ea 4 4 := by
  obtain ⟨effect, hexec⟩ := hexec
  refine ⟨_, _, accessesBytes_range hskip, operandParts_fails (by decide), fun r hr => ?_⟩
  rw [dataStop] at hr
  have haddresses : (List.range 4).map (byteAddress ea) = byteAddresses ea 4 := rfl
  rw [hexec, alignmentStop, ← haddresses]
  split at hr
  next q hq =>
    exact Option.some.inj hr
  next hq =>
    rw [hal, hr]
    rfl

end

section
variable {s : State} {r ra rb : Reg} {d : BitVec 16} {nr : Bool}

theorem checksInOrder_scalarLoad : ∀ l ∈ scalarLoads r ra rb d nr, ∀ store ea n, dataReference l.instr s = some (store, ea, n) →
    ChecksInOrder l.instr s store ea n l.width := by
  simp only [scalarLoads, List.forall_mem_cons, List.not_mem_nil, false_implies, implies_true, and_true]
  and_intros
  all_goals
    rintro _ _ _ ⟨⟩
    exact checksInOrder_operand (by decide) (fun k => by simp [SkipsByte]) rfl

theorem checksInOrder_scalarStore : ∀ l ∈ scalarStores r ra rb d nr, ∀ store ea n,
    dataReference l.instr s = some (store, ea, n) → ChecksInOrder l.instr s store ea n l.width := by
  simp only [scalarStores, List.forall_mem_cons, List.not_mem_nil, false_implies, implies_true, and_true]
  and_intros
  all_goals
    rintro _ _ _ ⟨⟩
    exact checksInOrder_operand (by decide) (fun k => by simp [SkipsByte]) rfl

theorem checksInOrder_lwarx (hal : misaligned (s.eaX ra rb) = false) :
    ChecksInOrder (.lwarx r ra rb nr) s false (s.eaX ra rb) 4 4 :=
  checksInOrder_aligned (fun k => by simp [SkipsByte]) hal ⟨_, rfl⟩

theorem checksInOrder_stwcx (hal : misaligned (s.eaX ra rb) = false) (hreserve : s.reserve = true) :
    ChecksInOrder (.stwcx r ra rb) s true (s.eaX ra rb) 4 4 := by
  have hexec : exec (.stwcx r ra rb) s = execStwcx r ra rb s := rfl
  refine checksInOrder_aligned (fun k => by simp [SkipsByte]) hal ?_
  rw [hexec, execStwcx, hreserve, if_pos rfl]
  exact ⟨_, rfl⟩

theorem exec_dcbz_machineCheck (hme : s.meBit = true) (hperm : s.permitted true (blockBase (s.eaX ra rb)) = true)
    (hzero : Zeroable s (blockBase (s.eaX ra rb))) (hfails : ∃ k, k < 32 ∧ FailsAt s true (blockBase (s.eaX ra rb)) 1 k) :
    exec (.dcbz ra rb nr) s = .next (dataMachineCheck s) := by
  have hexec : exec (.dcbz ra rb nr) s = execDcbz ra rb nr s := rfl
  obtain ⟨k, hk, hfail⟩ := hfails
  have hany : (singleBytes (byteAddresses (blockBase (s.eaX ra rb)) 32)).any (s.partFails true) = true :=
    (singleBytes_fails (List.range 32)).2 ⟨k, List.mem_range.2 hk, hfail⟩
  rw [hexec]
  simp only [execDcbz, translationStopAt_permitted hperm, blockRefusesZero_of_zeroable hzero, busStop, hme, hany,
    unlessStopped_none]
  rfl

end

/-! ## Loads past bus errors -/

section
variable {s : State} {r ra rb : Reg} {d : BitVec 16} {nr : Bool} {ea : Word}

theorem scalarLoad_plain {l : ScalarLoad} (hl : l ∈ scalarLoads r ra rb d nr)
    (href : dataReference l.instr s = some (false, ea, l.width)) (h : ∀ k, k < l.width → Plain s false ea l.width k) :
    RunsTo l.instr s fun t => (∃ f : Nat → Byte,
      (∀ k, k < l.width → ¬FailsAt s false ea l.width k → f k = s.byteAt false (byteAddress ea k)) ∧
        l.Leaves r ra ea (s.littleData false ea) f s t) ∧ t.hostLog = s.hostLog := by
  obtain ⟨hpos, -, -⟩ := scalarLoad_form l hl
  have hstop : dataStop s false (byteAddresses ea l.width) (operandParts ea l.width) = none :=
    dataStop_plain (fun k hk => h k (List.mem_range.1 hk)) (operandParts_fails hpos)
  obtain ⟨t, ht, hleaves, hlog⟩ := scalarLoad_runs hl href hstop
  exact ⟨t, ht, ⟨_, fun k hk hok => loadByte_plain s.hostLog k hk h hok, hleaves⟩,
    hlog.trans (logLoads_silent _ (operandParts_silent hpos h))⟩

theorem lmw_plain (h : ∀ k, k < 4 * (32 - r.toNat) → ¬SkipsByte (.lmw r ra d) s k → Plain s false (s.eaD ra d) 4 k) :
    RunsTo (.lmw r ra d) s fun t => (∃ f : Nat → Byte,
      (∀ k, k < 4 * (32 - r.toNat) → ¬SkipsByte (.lmw r ra d) s k → ¬FailsAt s false (s.eaD ra d) 4 k →
        f k = s.byteAt false (byteAddress (s.eaD ra d) k)) ∧ LoadsMultiple r ra (s.eaD ra d) f s t) ∧
      t.hostLog = s.hostLog := by
  have hword {j : Nat} (hj : j < 32 - r.toNat) (hread : readsWord r ra j = true) :
      ∀ b, b < 4 → Plain s false (wordAt (s.eaD ra d) j) 4 b := fun b hb => by
    have hdiv : (4 * j + b) / 4 = j := by omega
    exact (plain_wordAt hb).1 (h _ (by omega) (readsWord_iff.1 (hdiv.symm ▸ hread)))
  have hks : ∀ k ∈ bytesOfWords ((List.range (32 - r.toNat)).filter (readsWord r ra)), Plain s false (s.eaD ra d) 4 k := by
    intro k hk
    obtain ⟨hj, hread⟩ := List.mem_filter.1 (mem_bytesOfWords.1 hk)
    have := List.mem_range.1 hj
    exact h k (by omega) (readsWord_iff.1 hread)
  have hstop : dataStop s false (wordsBytes (loadedWords r ra (s.eaD ra d))) (wordsParts (loadedWords r ra (s.eaD ra d))) = none := by
    rw [loadedWords_eq, wordsBytes_eq]
    exact dataStop_plain hks (wordsParts_fails _ (r.toNat + ·))
  obtain ⟨t, ht, hloads, hlog⟩ := lmw_runs (f := fun k =>
      s.loadByte (logBeforeWord s r ra (s.eaD ra d) (k / 4)) k (wordAt (s.eaD ra d) (k / 4)) 4 (k % 4)) hstop
    fun j hj hread b hb => by rw [show (4 * j + b) / 4 = j by omega, show (4 * j + b) % 4 = b by omega]
  refine ⟨t, ht, ⟨_, fun k hk hskip hok => ?_, hloads⟩, hlog.trans (logLoads_silent _ fun p hp => ?_)⟩
  · have hb := Nat.mod_lt k (show 0 < 4 by decide)
    have hbyte := loadByte_plain (logBeforeWord s r ra (s.eaD ra d) (k / 4)) k hb
      (hword (by omega) (readsWord_iff.2 hskip)) (by rwa [← failsAt_wordAt hb, Nat.div_add_mod])
    have haddress : byteAddress (wordAt (s.eaD ra d) (k / 4)) (k % 4) = byteAddress (s.eaD ra d) (4 * (k / 4) + k % 4) :=
      byteAddress_wordAt ..
    rw [haddress, Nat.div_add_mod] at hbyte
    exact hbyte
  · rw [loadedWords_eq, wordsParts_map] at hp
    obtain ⟨j, hj, hp⟩ := List.mem_flatMap.1 hp
    obtain ⟨hj, hread⟩ := List.mem_filter.1 hj
    exact operandParts_silent (by decide) (hword (List.mem_range.1 hj) hread) p hp

/-- Byte k alone, as an operand of its own. -/
theorem plain_byte {store : Bool} {k : Nat} (h : Plain s store ea 1 k) : ∀ b, b < 1 → Plain s store (byteAddress ea k) 1 b := by
  intro b hb
  obtain rfl : b = 0 := by omega
  have haddress : byteAddress (byteAddress ea k) 0 = byteAddress ea k := BitVec.add_zero _
  rw [Plain, failsAt_one] at h ⊢
  rwa [haddress]

theorem stringLoadForm_plain {bases : List Reg} {count : Nat} (hcount : count ≤ 128)
    (h : ∀ k, k < count → readsByte r bases count k = true → Plain s false ea 1 k) :
    ∃ t, stringLoadForm r bases ea count nr s = .next t ∧ (∃ f : Nat → Byte,
      (∀ k, k < count → readsByte r bases count k = true → ¬FailsAt s false ea 1 k → f k = s.byteAt false (byteAddress ea k)) ∧
        FillsRegisters r bases count nr f s t) ∧ t.hostLog = s.hostLog := by
  have hks : ∀ k ∈ (List.range count).filter (readsByte r bases count), Plain s false ea 1 k := fun k hk =>
    h k (List.mem_range.1 (List.mem_filter.1 hk).1) (List.mem_filter.1 hk).2
  obtain ⟨t, ht, hfills, hlog⟩ := stringLoadForm_runs (nr := nr) hcount (dataStop_plain hks (singleBytes_fails _))
    fun k _ _ => rfl
  refine ⟨t, ht, ⟨_, fun k hk hread hok => ?_, hfills⟩, hlog.trans (logLoads_silent _ fun p hp => ?_)⟩
  · have hbyte (log : List HostAccess) := loadByte_plain log k Nat.one_pos (plain_byte (h k hk hread))
      (by rw [failsAt_one] at hok ⊢; rwa [byteAddress, BitVec.add_zero])
    have hload (log : List HostAccess) : s.loadPart log k (byteAddress ea k) 1 0 = s.loadByte log k (byteAddress ea k) 1 0 := by
      simp [State.loadByte, Nat.mod_one]
    refine (hload _).trans ((hbyte _).trans ?_)
    rw [byteAddress, BitVec.add_zero]
  · rw [stringParts_eq] at hp
    obtain ⟨k, hk, hp⟩ := List.mem_flatMap.1 hp
    exact operandParts_silent Nat.one_pos (plain_byte (hks k hk)) p hp

theorem lwarx_plain (hal : misaligned (s.eaX ra rb) = false) (h : ∀ k, k < 4 → Plain s false (s.eaX ra rb) 4 k) :
    RunsTo (.lwarx r ra rb nr) s fun t => (∃ f : Nat → Byte,
      (∀ k, k < 4 → ¬FailsAt s false (s.eaX ra rb) 4 k → f k = s.byteAt false (byteAddress (s.eaX ra rb) k)) ∧
      t.reg r = BitVec.ofNat 32 (bigEndianNat (inOrder (s.littleData false (s.eaX ra rb)) ((List.range 4).map f)))) ∧
      RegsKept [r] s t ∧ CrKept nr s t ∧
      t = { s with gpr := t.gpr, cr := t.cr, reserve := true, pc := s.pc + 4, freeCount := t.freeCount } := by
  have hks : ∀ k ∈ List.range 4, Plain s false (s.eaX ra rb) 4 k := fun k hk => h k (List.mem_range.1 hk)
  have hperm : ∀ a ∈ byteAddresses (s.eaX ra rb) 4, s.permitted false a = true := List.forall_mem_map.2 fun k hk => (hks k hk).1
  have hbus : busStop s false (operandParts (s.eaX ra rb) 4) = none := busStop_plain hks (operandParts_fails (by decide))
  have hloads : s.afterLoads (operandParts (s.eaX ra rb) 4) = s := by
    rw [State.afterLoads, logLoads_silent _ (operandParts_silent (by decide) h)]
  have hexec : exec (.lwarx r ra rb nr) s = execLwarx r ra rb nr s := rfl
  unfold RunsTo
  rw [hexec]
  simp only [execLwarx, alignmentStop_permitted hperm hal, hbus, hloads, unlessStopped_none]
  have hframe (n : Nat) (v : Word) : DataFrame { s with reserve := true }
      (State.setReg { s with reserve := true, freeCount := n } r v) := rfl
  have hreg (n : Nat) (v : Word) (q : Reg) (hq : q ≠ r) :
      (State.setReg { s with reserve := true, freeCount := n } r v).reg q = s.reg q := reg_setReg_other _ _ _ _ hq
  have hlen (b : Bool) (f : Nat → Byte) : (inOrder b ((List.range 4).map f)).length = 4 := by cases b <;> simp [inOrder]
  obtain ⟨hcr, heq⟩ := (hframe (s.freeCount + s.loadDraws 4 (operandParts (s.eaX ra rb) 4))
    (s.memRead s.hostLog 0 (s.eaX ra rb) 4)).finish_of_mem rfl nr
  rw [finish_hostLog] at heq
  refine ⟨_, rfl, ⟨fun k => s.loadByte s.hostLog (0 + k) (s.eaX ra rb) 4 k, fun k hk hok => loadByte_plain _ _ hk h hok, ?_⟩,
    fun q hq => ?_, hcr, heq⟩
  · rw [reg_finish, reg_setReg_same, ← wordOfByteList_eq _ (hlen _ _).le]
    rfl
  · rw [reg_finish, hreg _ _ _ (by simpa using hq)]

end

/-! ## Stores past bus errors -/

/-- Whether the single access that moves byte k, in elements of w bytes from ea on, meets a bus error. -/
def accessFails (s : State) (store : Bool) (ea : Word) (w k : Nat) : Bool :=
  if (byteAddress ea (k / w * w)).toNat % w = 0 then s.partFails store (byteAddress ea (k / w * w), w)
  else s.partFails store (byteAddress ea k, 1)

/-- The bytes that a store of n bytes from ea on, in elements of w bytes, gives to storage, with their addresses. -/
def storedPairs (s : State) (ea : Word) (w n : Nat) (byte : Nat → Byte) : List (Word × Byte) :=
  ((List.range n).filter fun k => !accessFails s true ea w k).map fun k => (byteAddress ea k, byte k)

section
variable {s : State} {ea : Word} {n w : Nat} {byte : Nat → Byte}

theorem accessFails_iff (store : Bool) (hw : 0 < w) (k : Nat) : accessFails s store ea w k = true ↔ FailsAt s store ea w k := by
  have helement : byteAddress ea (k / w * w) = ea + BitVec.ofNat 32 (k / w * w) := rfl
  have hbyte : byteAddress ea k = ea + BitVec.ofNat 32 k := rfl
  unfold accessFails FailsAt
  simp only [helement, hbyte]
  split
  · exact partFails_iff _ _ _ _ hw
  · exact partFails_iff _ _ _ _ Nat.one_pos

theorem accessFails_operand (store : Bool) {k : Nat} (hk : k < n) : accessFails s store ea n k =
    if ea.toNat % n = 0 then s.partFails store (ea, n) else s.partFails store (byteAddress ea k, 1) := by
  have hfirst : byteAddress ea (k / n * n) = ea := by
    rw [Nat.div_eq_of_lt hk, Nat.zero_mul]
    exact BitVec.add_zero _
  rw [accessFails, hfirst]

theorem accessFails_one (store : Bool) (k : Nat) : accessFails s store ea 1 k = s.partFails store (byteAddress ea k, 1) := by
  rw [accessFails, Nat.mod_one, if_pos rfl, Nat.div_one, Nat.mul_one]

theorem storeBytes_filter_ram (s : State) (pairs : List (Word × Byte)) :
    s.storeBytes (pairs.filter fun p => s.isRam (s.realData true p.1)) = s.storeBytes pairs := by
  unfold State.storeBytes
  rw [List.foldl_filter]
  congr
  funext m p
  dsimp only
  split <;> rfl

theorem accessible_of_permitted {a : Word} (hperm : s.permitted true a = true) (hram : s.isRam (s.realData true a) = true) :
    s.accessible true a = true := by
  rw [accessible_iff]
  unfold State.permitted at hperm
  split at hperm
  next ra attributes hreal =>
    rw [realData_of_real hreal] at hram
    exact ⟨ra, attributes, hreal, .inl (by simpa [State.isRam] using hram)⟩
  all_goals cases hperm

/-- Those of them that RAM answers for. -/
def ramPairs (s : State) (ea : Word) (w n : Nat) (byte : Nat → Byte) : List (Word × Byte) :=
  (storedPairs s ea w n byte).filter fun p => s.isRam (s.realData true p.1)

theorem mem_ramPairs (hw : 0 < w) {p : Word × Byte} : p ∈ ramPairs s ea w n byte ↔ ∃ k, k < n ∧
    (s.isRam (s.realData true (byteAddress ea k)) = true ∧ ¬FailsAt s true ea w k) ∧ p = (byteAddress ea k, byte k) := by
  have hok (k : Nat) : (!accessFails s true ea w k) = true ↔ ¬FailsAt s true ea w k := by
    rw [Bool.not_eq_true', ← Bool.not_eq_true, accessFails_iff true hw]
  constructor
  · intro hp
    obtain ⟨hp, hram⟩ := List.mem_filter.1 hp
    obtain ⟨k, hk, rfl⟩ := List.mem_map.1 hp
    obtain ⟨hk, hfail⟩ := List.mem_filter.1 hk
    exact ⟨k, List.mem_range.1 hk, ⟨hram, (hok k).1 hfail⟩, rfl⟩
  · rintro ⟨k, hk, ⟨hram, hfail⟩, rfl⟩
    exact List.mem_filter.2 ⟨List.mem_map.2 ⟨k, List.mem_filter.2 ⟨List.mem_range.2 hk, (hok k).2 hfail⟩, rfl⟩, hram⟩

theorem ramPairs_distinct (hn : n ≤ 1024) :
    (ramPairs s ea w n byte).Pairwise fun p q => (s.realData true p.1).toNat ≠ (s.realData true q.1).toNat := by
  refine List.Pairwise.filter _ (List.pairwise_map.2 ((List.nodup_range.filter _).pairwise_of_forall_ne ?_))
  intro i hi j hj hij
  have hi' := List.mem_range.1 (List.mem_filter.1 hi).1
  have hj' := List.mem_range.1 (List.mem_filter.1 hj).1
  exact realData_ne s true ea (by omega) (by omega) hij

/-- What the bytes that a store gives to storage leave there. -/
theorem storedInRam_of_storedPairs (hm : Memory.wf s.mem = true) (hn : n ≤ 1024) (hw : 0 < w)
    (hperm : ∀ k, k < n → s.permitted true (byteAddress ea k) = true) {t : State}
    (ht : t.mem = s.storeBytes (storedPairs s ea w n byte)) : StoredInRam ea w n (fun k => (byte k).toNat) s t := by
  have hmem : t.mem = s.storeBytes (ramPairs s ea w n byte) := ht.trans (storeBytes_filter_ram ..).symm
  have haccessible : ∀ p ∈ ramPairs s ea w n byte, s.accessible true p.1 = true := by
    intro p hp
    obtain ⟨k, hk, ⟨hram, -⟩, rfl⟩ := (mem_ramPairs hw).1 hp
    exact accessible_of_permitted (hperm k hk) hram
  have hread := read_storeBytes_mem hm haccessible (ramPairs_distinct hn)
  unfold StoredInRam
  constructor
  case left =>
    intro k hk hstored
    rw [hmem]
    exact congrArg BitVec.toNat (hread (byteAddress ea k, byte k) ((mem_ramPairs hw).2 ⟨k, hk, hstored, rfl⟩))
  case right =>
    intro a ha
    rw [hmem]
    refine read_storeBytes_other fun p hp => ?_
    obtain ⟨k, hk, hstored, rfl⟩ := (mem_ramPairs hw).1 hp
    exact ha k hk hstored

/-- A single store that no device answers reaches storage unless it fails. -/
theorem storageBytes_silent {a : Word} {bs : List Byte} (h : s.isDevice (s.realData true a) = true → s.partFails true (a, bs.length) = true) :
    s.storageBytes (a, bs) = if s.partFails true (a, bs.length) then [] else (byteAddresses a bs.length).zip bs := by
  have hor : (s.partFails true (a, bs.length) || s.isDevice (s.realData true a)) = s.partFails true (a, bs.length) := by
    rw [Bool.or_eq_left_iff_imp]
    exact h
  rw [State.storageBytes, hor]

/-- Bytes stored one by one. -/
theorem storageBytes_byteParts_plain {ks : List Nat} (h : ∀ k ∈ ks, s.isDevice (s.realData true (byteAddress ea k)) = true →
      s.partFails true (byteAddress ea k, 1) = true) :
    (byteParts (ks.map fun k => (byteAddress ea k, byte k))).flatMap s.storageBytes =
      (ks.filter fun k => !s.partFails true (byteAddress ea k, 1)).map fun k => (byteAddress ea k, byte k) := by
  have hbyte : ∀ k ∈ ks, s.storageBytes (byteAddress ea k, [byte k])
      = if s.partFails true (byteAddress ea k, 1) then [] else [(byteAddress ea k, byte k)] := fun k hk => by
    rw [storageBytes_silent (bs := [byte k]) (h k hk), List.length_singleton, byteAddresses_one]
    rfl
  rw [byteParts, List.map_map, List.flatMap_map]
  refine (List.flatMap_congr hbyte).trans ?_
  clear h hbyte
  induction ks with
  | nil => rfl
  | cons k ks ih =>
    rw [List.flatMap_cons, ih]
    cases hfail : s.partFails true (byteAddress ea k, 1) <;> simp [hfail]

theorem fails_of_plain_one {k : Nat} (h : Plain s true ea 1 k) (hdev : s.isDevice (s.realData true (byteAddress ea k)) = true) :
    s.partFails true (byteAddress ea k, 1) = true := failsAt_one.1 (h.2.1 hdev)

/-- Bytes stored one by one past bus errors: no device sees them. -/
theorem afterStores_bytes_plain (h : ∀ k, k < n → Plain s true ea 1 k) :
    s.afterStores (byteParts ((List.range n).map fun k => (byteAddress ea k, byte k))) =
      { s with mem := s.storeBytes (storedPairs s ea 1 n byte) } := by
  have hks : ∀ k ∈ List.range n, Plain s true ea 1 k := fun k hk => h k (List.mem_range.1 hk)
  have hlog := logStores_silent s.hostLog (parts := byteParts ((List.range n).map fun k => (byteAddress ea k, byte k)))
    fun part hpart => by
      obtain ⟨p, hp, rfl⟩ := List.mem_map.1 hpart
      obtain ⟨k, hk, rfl⟩ := List.mem_map.1 hp
      exact operandParts_silent Nat.one_pos (plain_byte (hks k hk)) _ (by rw [operandParts_one]; exact List.mem_singleton_self _)
  rw [State.afterStores, hlog, storageBytes_byteParts_plain fun k hk => fails_of_plain_one (hks k hk)]
  simp only [storedPairs, accessFails_one]

/-- The bytes that an operand gives to storage. -/
theorem storageBytes_operandStores_plain (v : Word) (hn : 0 < n) (h : ∀ k, k < n → Plain s true ea n k) :
    (s.operandStores ea n v).flatMap s.storageBytes = storedPairs s ea n n fun k =>
      BitVec.ofNat 8 (byteOfNat n (if s.littleData true ea then n - 1 - k else k) v.toNat) := by
  have hfails {k : Nat} (hk : k < n) (hdev : s.isDevice (s.realData true (byteAddress ea k)) = true) :
      accessFails s true ea n k = true := (accessFails_iff true hn k).2 ((h k hk).2.1 hdev)
  have hfilter : ((List.range n).filter fun k => !accessFails s true ea n k) = (List.range n).filter fun k =>
      !if ea.toNat % n = 0 then s.partFails true (ea, n) else s.partFails true (byteAddress ea k, 1) :=
    List.filter_congr fun k hk => by rw [accessFails_operand true (List.mem_range.1 hk)]
  have hbytes : (byteAddresses ea n).zip (s.orderedBytes ea n v) = (List.range n).map fun k => (byteAddress ea k,
      BitVec.ofNat 8 (byteOfNat n (if s.littleData true ea then n - 1 - k else k) v.toNat)) := by
    rw [orderedBytes_eq, byteAddresses, List.zip_map']
    rfl
  rw [storedPairs, hfilter, State.operandStores]
  by_cases haligned : ea.toNat % n = 0
  · have hfirst : s.isDevice (s.realData true ea) = true → s.partFails true (ea, n) = true := fun hdev => by
      have hfail := hfails hn (by rwa [byteAddress, BitVec.add_zero])
      rwa [accessFails_operand true hn, if_pos haligned] at hfail
    have hlen := orderedBytes_length s ea n v
    simp only [if_pos haligned]
    rw [List.flatMap_singleton, storageBytes_silent (by rwa [hlen]), hlen, hbytes]
    cases s.partFails true (ea, n) <;> simp
  · simp only [if_neg haligned]
    rw [State.operandBytes, hbytes]
    refine storageBytes_byteParts_plain fun k hk hdev => ?_
    have hfail := hfails (List.mem_range.1 hk) hdev
    rwa [accessFails_operand true (List.mem_range.1 hk), if_neg haligned] at hfail

theorem operandStores_silent (v : Word) (hn : 0 < n) (h : ∀ k, k < n → Plain s true ea n k) :
    ∀ part ∈ s.operandStores ea n v, s.deviceAnswers true (part.1, part.2.length) = false :=
  fun _ hpart => operandParts_silent hn h _ (operandStores_part hpart)

/-- MemWrite past bus errors. -/
theorem memWrite_plain (v : Word) (hn : 0 < n) (h : ∀ k, k < n → Plain s true ea n k) : s.memWrite ea n v =
    { s with mem := s.storeBytes (storedPairs s ea n n fun k =>
      BitVec.ofNat 8 (byteOfNat n (if s.littleData true ea then n - 1 - k else k) v.toNat)) } := by
  rw [State.memWrite, State.afterStores, storageBytes_operandStores_plain v hn h,
    logStores_silent _ (operandStores_silent v hn h)]

theorem byteOfNat_lt (n k v : Nat) : byteOfNat n k v < 256 := Nat.mod_lt _ (by decide)

theorem toNat_ofNat_byte {b : Nat} (hb : b < 256) : (BitVec.ofNat 8 b).toNat = b := by
  rw [BitVec.toNat_ofNat]
  exact Nat.mod_eq_of_lt hb

/-- The same bytes, as numbers. -/
theorem storedInRam_congr {b c : Nat → Nat} {t : State} (h : StoredInRam ea w n b s t) (hbc : ∀ k, k < n → b k = c k) :
    StoredInRam ea w n c s t := by
  obtain ⟨hstored, hkept⟩ := h
  exact ⟨fun k hk hram => (hstored k hk hram).trans (hbc k hk), hkept⟩

end

section
variable {s : State} {r ra rb : Reg} {d : BitVec 16} {nr : Bool} {ea : Word}

theorem scalarStore_plain (hm : Memory.wf s.mem = true) {l : ScalarStore} (hl : l ∈ scalarStores r ra rb d nr)
    (href : dataReference l.instr s = some (true, ea, l.width)) (h : ∀ k, k < l.width → Plain s true ea l.width k) :
    RunsTo l.instr s fun t => StoredInRam ea l.width l.width (l.byte (s.littleData true ea) (s.reg r).toNat) s t ∧
      l.Leaves ra ea s t ∧ t.hostLog = s.hostLog := by
  obtain ⟨hpos, hwidth⟩ := scalarStore_form l hl
  have hstop : dataStop s true (byteAddresses ea l.width) (operandParts ea l.width) = none :=
    dataStop_plain (fun k hk => h k (List.mem_range.1 hk)) (operandParts_fails hpos)
  obtain ⟨t, ht, hleaves, hmem, hlog⟩ := scalarStore_runs hl href hstop
  rw [memWrite_plain _ hpos h] at hmem hlog
  refine ⟨t, ht, storedInRam_congr (storedInRam_of_storedPairs hm (by omega) hpos (fun k hk => (h k hk).1) hmem) fun k hk => ?_,
    hleaves, hlog⟩
  rw [toNat_ofNat_byte (byteOfNat_lt ..), scalarStore_byte hwidth hk]

/-- Groups of four of which some are left out. -/
theorem flatMap_range_four_filter {α : Type} (p : Nat → Bool) (g : Nat → α) (n : Nat) :
    ((List.range n).flatMap fun j => ((List.range 4).filter fun b => p (4 * j + b)).map fun b => g (4 * j + b)) =
      ((List.range (4 * n)).filter p).map g := by
  have hgroups := flatMap_range_four (fun k => k) n
  rw [List.map_id'] at hgroups
  rw [← hgroups, List.filter_flatMap, List.map_flatMap]
  refine List.flatMap_congr fun j _ => ?_
  rw [List.filter_map, List.map_map]
  rfl

theorem accessFails_wordAt (store : Bool) {j b : Nat} (hb : b < 4) :
    accessFails s store (wordAt ea j) 4 b = accessFails s store ea 4 (4 * j + b) := by
  rw [Bool.eq_iff_iff, accessFails_iff _ (by decide), accessFails_iff _ (by decide), failsAt_wordAt hb]

theorem stmw_plain (hm : Memory.wf s.mem = true) (h : ∀ k, k < 4 * (32 - r.toNat) → Plain s true (s.eaD ra d) 4 k) :
    RunsTo (.stmw r ra d) s fun t =>
      StoredInRam (s.eaD ra d) 4 (4 * (32 - r.toNat)) (multipleByte r (s.eaD ra d) s) s t ∧ OnlyStores false s t := by
  have hjs : ∀ j ∈ List.range (32 - r.toNat), ∀ b, b < 4 → Plain s true (wordAt (s.eaD ra d) j) 4 b := fun j hj b hb =>
    (plain_wordAt hb).1 (h _ (by have := List.mem_range.1 hj; omega))
  have hks : ∀ k ∈ bytesOfWords (List.range (32 - r.toNat)), Plain s true (s.eaD ra d) 4 k := fun k hk =>
    h k (by have := List.mem_range.1 (mem_bytesOfWords.1 hk); omega)
  have hwords : multipleWords r (s.eaD ra d) = (List.range (32 - r.toNat)).map fun j => (r.toNat + j, wordAt (s.eaD ra d) j) := rfl
  have hstop : dataStop s true (wordsBytes (multipleWords r (s.eaD ra d))) (wordsParts (multipleWords r (s.eaD ra d))) = none := by
    rw [hwords, wordsBytes_eq]
    exact dataStop_plain hks (wordsParts_fails _ (r.toNat + ·))
  have hlog := logStores_silent s.hostLog (parts := (List.range (32 - r.toNat)).flatMap fun j =>
      s.operandStores (wordAt (s.eaD ra d) j) 4 (s.reg (BitVec.ofNat 5 (r.toNat + j)))) fun part hpart => by
    obtain ⟨j, hj, hpart⟩ := List.mem_flatMap.1 hpart
    exact operandStores_silent _ (by decide) (hjs j hj) part hpart
  have hpairs : ((List.range (32 - r.toNat)).flatMap fun j =>
      s.operandStores (wordAt (s.eaD ra d) j) 4 (s.reg (BitVec.ofNat 5 (r.toNat + j)))).flatMap s.storageBytes =
        storedPairs s (s.eaD ra d) 4 (4 * (32 - r.toNat)) fun k => BitVec.ofNat 8 (multipleByte r (s.eaD ra d) s k) := by
    rw [List.flatMap_assoc, storedPairs, ← flatMap_range_four_filter]
    refine List.flatMap_congr fun j hj => ?_
    rw [storageBytes_operandStores_plain _ (by decide) (hjs j hj), storedPairs,
      List.filter_congr fun b hb => by rw [accessFails_wordAt _ (List.mem_range.1 hb)]]
    refine List.map_congr_left fun b hb => ?_
    have hb' := List.mem_range.1 (List.mem_filter.1 hb).1
    have haddress : byteAddress (wordAt (s.eaD ra d) j) b = byteAddress (s.eaD ra d) (4 * j + b) := byteAddress_wordAt ..
    rw [haddress, multipleByte, show (4 * j + b) / 4 = j by omega, show (4 * j + b) % 4 = b by omega]
    rfl
  have hexec : exec (.stmw r ra d) s = execStmw r ra d s := rfl
  unfold RunsTo
  rw [hexec]
  simp only [execStmw, hstop, unlessStopped_none]
  rw [hwords, List.flatMap_map, State.afterStores, hlog, hpairs]
  refine ⟨_, rfl, storedInRam_congr (storedInRam_of_storedPairs hm (by omega) (by decide) (fun k hk => (h k hk).1)
    (advance_mem _)) fun k _ => toNat_ofNat_byte (multipleByte_lt ..), fun q _ => rfl, ⟨fun _ => rfl, fun k _ => rfl⟩, rfl⟩

/-- The end of an instruction that stores bytes one by one. -/
theorem bytesStored_plain (hm : Memory.wf s.mem = true) {n : Nat} (hn : n ≤ 1024) (h : ∀ k, k < n → Plain s true ea 1 k)
    {byte : Nat → Byte} {t : State}
    (ht : t = (s.afterStores (byteParts ((List.range n).map fun k => (byteAddress ea k, byte k)))).finish nr) :
    StoredInRam ea 1 n (fun k => (byte k).toNat) s t ∧ OnlyStores nr s t := by
  rw [afterStores_bytes_plain h] at ht
  subst ht
  have hframe : DataFrame s { s with mem := s.storeBytes (storedPairs s ea 1 n byte) } := rfl
  have hstores := hframe.onlyMoves (written := []) (fun _ _ => rfl) nr
  rw [finish_hostLog] at hstores
  exact ⟨storedInRam_of_storedPairs hm hn Nat.one_pos (fun k hk => (h k hk).1) (finish_mem ..), hstores⟩

theorem stringStoreForm_plain (hm : Memory.wf s.mem = true) {count : Nat} (hcount : count ≤ 128)
    (h : ∀ k, k < count → Plain s true ea 1 k) : ∃ t, stringStoreForm r ea count nr s = .next t ∧
      StoredInRam ea 1 count (stringByteOf r s) s t ∧ OnlyStores nr s t := by
  have hstop : dataStop s true (byteAddresses ea count) (singleBytes (byteAddresses ea count)) = none :=
    dataStop_plain (fun k hk => h k (List.mem_range.1 hk)) (singleBytes_fails (List.range count))
  have hbyte (k : Nat) : ((s.reg (BitVec.ofNat 5 (stringReg r k))).extractLsb' (24 - 8 * (k % 4)) 8).toNat = stringByteOf r s k := by
    rw [stringByteOf, ← byteOfNat_eq, stringReg, show 8 * (4 - 1 - k % 4) = 24 - 8 * (k % 4) by omega]
  rw [stringStoreForm, hstop, unlessStopped_none]
  obtain ⟨hstored, hstores⟩ := bytesStored_plain (nr := nr) hm (by omega) h (byte := fun k =>
    (s.reg (BitVec.ofNat 5 (stringReg r k))).extractLsb' (24 - 8 * (k % 4)) 8) rfl
  exact ⟨_, rfl, storedInRam_congr hstored fun k _ => hbyte k, hstores⟩

theorem dcbz_plain (hm : Memory.wf s.mem = true) (hperm : s.permitted true (blockBase (s.eaX ra rb)) = true)
    (hzero : Zeroable s (blockBase (s.eaX ra rb))) (h : ∀ k, k < 32 → Plain s true (blockBase (s.eaX ra rb)) 1 k) :
    RunsTo (.dcbz ra rb nr) s fun t => StoredInRam (blockBase (s.eaX ra rb)) 1 32 (fun _ => 0) s t ∧ OnlyStores nr s t := by
  have hbus : busStop s true (singleBytes (byteAddresses (blockBase (s.eaX ra rb)) 32)) = none :=
    busStop_plain (fun k hk => h k (List.mem_range.1 hk)) (singleBytes_fails (List.range 32))
  exact ⟨_, exec_dcbz hperm hzero hbus, bytesStored_plain hm (by decide) h rfl⟩

/-- What stwcx. writes into CR0. -/
theorem fieldBecomes_stwcx {b : Bool} {t : State} (ht : t.cr = withCrField s.cr 0 (fourBits false false b (xerSo s.xer))) :
    FieldBecomes 0 (fourBits false false b (xerSo s.xer)) false s t :=
  ⟨fun _ => by rw [ht, crField_withCrField, if_pos rfl], fun k hk _ => by rw [ht, crField_withCrField, if_neg hk]⟩

theorem stwcx_plain (hm : Memory.wf s.mem = true) (hal : misaligned (s.eaX ra rb) = false) (hreserve : s.reserve = true)
    (h : ∀ k, k < 4 → Plain s true (s.eaX ra rb) 4 k) : RunsTo (.stwcx r ra rb) s fun t =>
      StoredInRam (s.eaX ra rb) 4 4 (fun k => byteOfNat 4 (if s.littleData true (s.eaX ra rb) then 3 - k else k) (s.reg r).toNat)
        s t ∧
      FieldBecomes 0 (fourBits false false true (xerSo s.xer)) false s t ∧
      t = { s with mem := t.mem, cr := t.cr, reserve := false, pc := s.pc + 4 } := by
  have hks : ∀ k ∈ List.range 4, Plain s true (s.eaX ra rb) 4 k := fun k hk => h k (List.mem_range.1 hk)
  have hperm : ∀ a ∈ byteAddresses (s.eaX ra rb) 4, s.permitted true a = true := List.forall_mem_map.2 fun k hk => (hks k hk).1
  have hbus : busStop s true (operandParts (s.eaX ra rb) 4) = none := busStop_plain hks (operandParts_fails (by decide))
  have hexec : exec (.stwcx r ra rb) s = execStwcx r ra rb s := rfl
  unfold RunsTo
  rw [hexec]
  simp only [execStwcx, alignmentStop_permitted hperm hal, hbus, hreserve, if_true, memWrite_plain _ (by decide) h,
    unlessStopped_none]
  exact ⟨_, rfl, storedInRam_congr (storedInRam_of_storedPairs hm (by decide) (by decide) (fun k hk => (h k hk).1) rfl)
    fun k _ => toNat_ofNat_byte (byteOfNat_lt ..), fieldBecomes_stwcx rfl, rfl⟩

/-- Without a reservation stwcx. accesses nothing. -/
theorem stwcx_unreserved (hal : misaligned (s.eaX ra rb) = false) (hreserve : s.reserve = false)
    (hperm : ∀ k, k < 4 → s.permitted true (byteAddress (s.eaX ra rb) k) = true) : RunsTo (.stwcx r ra rb) s fun t =>
      FieldBecomes 0 (fourBits false false false (xerSo s.xer)) false s t ∧ OnlyCr s t ∧ t.freeCount = s.freeCount := by
  have hexec : exec (.stwcx r ra rb) s = execStwcx r ra rb s := rfl
  unfold RunsTo
  rw [hexec]
  simp only [execStwcx, alignmentStop_permitted (permitted_byteAddresses hperm) hal, hreserve, Bool.false_eq_true, if_false,
    unlessStopped_none]
  exact ⟨_, rfl, fieldBecomes_stwcx rfl, by rw [← hreserve]; rfl, rfl⟩

end

/-- A string load whose skipped bytes are those that `SkipsByte` names. -/
theorem stringLoad_plain {s : State} {r : Reg} {nr : Bool} {ea : Word} {i : Instr} {bases : List Reg} {count : Nat}
    (hcount : count ≤ 128)
    (hskip : ∀ k, SkipsByte i s k ↔ stringLoads r (bases.map (·.toNat)) count (stringReg r k) = false)
    (hexec : exec i s = stringLoadForm r bases ea count nr s)
    (h : ∀ k, k < count → ¬SkipsByte i s k → Plain s false ea 1 k) : RunsTo i s fun t => (∃ f : Nat → Byte,
      (∀ k, k < count → ¬SkipsByte i s k → ¬FailsAt s false ea 1 k → f k = s.byteAt false (byteAddress ea k)) ∧
        FillsRegisters r bases count nr f s t) ∧ t.hostLog = s.hostLog := by
  have hread {k : Nat} (hk : k < count) : readsByte r bases count k = true ↔ ¬SkipsByte i s k := by
    rw [hskip, stringLoads_eq hk hcount, Bool.not_eq_false]
  rw [RunsTo, hexec]
  obtain ⟨t, ht, ⟨f, hf, hfills⟩, hlog⟩ := stringLoadForm_plain (nr := nr) hcount fun k hk hr => h k hk ((hread hk).1 hr)
  exact ⟨t, ht, ⟨f, fun k hk hr => hf k hk ((hread hk).2 hr), hfills⟩, hlog⟩

/-! ## The statement -/

/-- Settles O22: the machine checks by `ChecksInOrder`, the accesses that complete by the lemmas of their instructions. -/
theorem dataBusErrors : Obligations.DataBusErrors := by
  unfold Obligations.DataBusErrors
  intro s r ra rb d nb nr plain reads checks checksBy x base zeroable
  have hcount : (if nb = 0 then 32 else nb.toNat) ≤ 128 := (stringCount_le nb).trans (by decide)
  have hxer : s.xer.toNat % 128 ≤ 128 := (Nat.mod_lt _ (by decide)).le
  have hchecks {w : Nat} {i : Instr} (hme : s.meBit = true)
      (h : ∀ store ea n, dataReference i s = some (store, ea, n) → ChecksInOrder i s store ea n w) : checksBy w i :=
    fun store ea n href hperm hfails => runsTo_machineCheck ((h store ea n href).exec_machineCheck hme hperm hfails)
  have hchecksOf {w n : Nat} {store : Bool} {ea : Word} {i : Instr} (hme : s.meBit = true)
      (href : dataReference i s = some (store, ea, n)) (h : ChecksInOrder i s store ea n w) : checksBy w i :=
    hchecks hme fun store' ea' n' href' => by
      rw [href] at href'
      cases href'
      exact h
  refine ⟨fun hme => ?checks, stwcx_unreserved, fun l hl ea href h => ?scalarLoads, fun h => ?lmw, ⟨fun h => ?lswi, fun h => ?lswx⟩,
    fun hal h => ?lwarx, fun hm => ?stores⟩
  case checks =>
    refine ⟨fun l hl => hchecks hme (checksInOrder_scalarLoad l hl), fun l hl => hchecks hme (checksInOrder_scalarStore l hl),
      hchecksOf hme rfl checksInOrder_lmw, hchecksOf hme rfl checksInOrder_stmw, hchecksOf hme rfl checksInOrder_lswi,
      hchecksOf hme rfl checksInOrder_lswx, hchecksOf hme rfl checksInOrder_stswi, hchecksOf hme rfl checksInOrder_stswx,
      fun hal => hchecksOf hme rfl (checksInOrder_lwarx hal), fun hal hres => hchecksOf hme rfl (checksInOrder_stwcx hal hres),
      fun ⟨hperm, hzero⟩ hfails => runsTo_machineCheck (exec_dcbz_machineCheck hme hperm hzero hfails)⟩
  case scalarLoads =>
    obtain ⟨t, ht, ⟨f, hf, hleaves⟩, hlog⟩ := scalarLoad_plain hl href h
    exact ⟨t, ht, ⟨f, fun k hk _ => hf k hk, hleaves⟩, hlog⟩
  case lmw => exact lmw_plain h
  case lswi => exact stringLoad_plain (bases := [ra]) hcount (fun k => by simp [SkipsByte, stringCount]) rfl h
  case lswx =>
    exact stringLoad_plain (bases := [ra, rb]) hxer (fun k => by simp [SkipsByte, xerTbc_eq]) (exec_lswx ..) h
  case lwarx =>
    obtain ⟨t, ht, ⟨f, hf, hvalue⟩, hrest⟩ := lwarx_plain hal h
    exact ⟨t, ht, ⟨f, fun k hk _ => hf k hk, hvalue⟩, hrest⟩
  case stores =>
    refine ⟨fun l hl ea href h => scalarStore_plain hm hl href h, stmw_plain hm, ⟨fun h => ?stswi, fun h => ?stswx⟩,
      fun hal hres h => stwcx_plain hm hal hres h, fun ⟨hperm, hzero⟩ h => dcbz_plain hm hperm hzero h⟩
    case stswi => exact stringStoreForm_plain hm hcount h
    case stswx =>
      rw [RunsTo, exec_stswx]
      exact stringStoreForm_plain hm hxer h

end Sys2Proof.Proofs
end

section
/-! PROOF. The timers and what a reset leaves (60_exceptions.md R660 to R664, 70_reset_and_hazards.md R701 to R704, 10_state.md
R119). -/
namespace Sys2Proof.Proofs
open Sys2Proof Sys2Proof.Machine Sys2Proof.Laws

/-! ## The time base -/

/-- Bit k of a number is 1 if its low k + 1 bits number at least 2^k. -/
theorem testBit_iff_le_mod (n k : Nat) : n.testBit k = true ↔ 2 ^ k ≤ n % 2 ^ (k + 1) := by
  have hmod := Nat.mod_pow_succ (b := 2) (k := k) (x := n)
  have hlow := Nat.mod_lt n (Nat.two_pow_pos k)
  rw [Nat.testBit_eq_decide_div_mod_eq, decide_eq_true_eq, hmod]
  rcases Nat.mod_two_eq_zero_or_one (n / 2 ^ k) with h | h <;> rw [h] <;> omega

/-- Bit k goes 0 to 1 when a number counts up to 2^k modulo 2^(k + 1). -/
theorem testBit_rises_iff (n k : Nat) :
    (n.testBit k = false ∧ (n + 1).testBit k = true) ↔ (n + 1) % 2 ^ (k + 1) = 2 ^ k := by
  rw [← Bool.not_eq_true, testBit_iff_le_mod, testBit_iff_le_mod, Nat.add_mod, Nat.not_le]
  have hone : 1 % 2 ^ (k + 1) = 1 := Nat.mod_eq_of_lt (Nat.one_lt_two_pow (Nat.succ_ne_zero k))
  have hpos := Nat.two_pow_pos k
  have hlow := Nat.mod_lt n (Nat.two_pow_pos (k + 1))
  rw [hone]
  rw [Nat.pow_succ] at hlow ⊢
  rcases Nat.lt_or_ge (n % (2 ^ k * 2) + 1) (2 ^ k * 2) with h | h
  · rw [Nat.mod_eq_of_lt h]
    omega
  · rw [show n % (2 ^ k * 2) + 1 = 2 ^ k * 2 by omega, Nat.mod_self]
    omega

theorem rises_iff {s : State} {i k : Nat} (hi : 31 - i = k) (hk : k < 32) :
    rises s.tbl (s.tbl + 1) i = true ↔ NextTickRaises k s := by
  have hnext : (s.tbl + 1).getLsbD k = (s.tbl.toNat + 1).testBit k := by
    rw [BitVec.getLsbD, BitVec.toNat_add, Nat.testBit_mod_two_pow, decide_eq_true hk, Bool.true_and]
    rfl
  rw [NextTickRaises, ← testBit_rises_iff, rises, bitOf, bitOf, hi, hnext, Bool.and_eq_true, Bool.not_eq_true']
  rfl

/-- The tick raises the bit of the time base that the FIT watches, and that the watchdog watches. -/
def fitDue (s : State) : Bool := rises s.tbl (s.tbl + 1) (fitBit s.tcr)
def watchdogDue (s : State) : Bool := rises s.tbl (s.tbl + 1) (watchdogBit s.tcr)

theorem fitDue_iff (s : State) : fitDue s = true ↔ FitEvent s := by
  have := (s.tcr.extractLsb' 24 2).isLt
  exact rises_iff (by rw [fitBit]; omega) (by omega)

theorem watchdogDue_iff (s : State) : watchdogDue s = true ↔ WatchdogTimeout s := by
  have := (s.tcr.extractLsb' 30 2).isLt
  exact rises_iff (by rw [watchdogBit]; omega) (by omega)

/-- The time base after a tick. -/
theorem tickTimeBase_tbl (s : State) : (tickTimeBase s).tbl = s.tbl + 1 := by
  refine BitVec.eq_of_toNat_eq ?_
  have := s.tbl.isLt
  have := s.tbu.isLt
  rw [tickTimeBase]
  simp only [BitVec.extractLsb'_toNat, BitVec.toNat_add, toNat_append_eq]
  simp
  omega

theorem tickTimeBase_toNat (s : State) : (tickTimeBase s).tbu.toNat * 2 ^ 32 + (tickTimeBase s).tbl.toNat =
    (s.tbu.toNat * 2 ^ 32 + s.tbl.toNat + 1) % 2 ^ 64 := by
  have := s.tbl.isLt
  have := s.tbu.isLt
  rw [tickTimeBase]
  simp only [BitVec.extractLsb'_toNat, BitVec.toNat_add, toNat_append_eq, Nat.shiftRight_eq_div_pow]
  simp
  omega

/-! ## One tick -/

theorem tickFit_eq (old : Word) (s : State) : tickFit old s =
    { s with tsr := s.tsr ||| if rises old s.tbl (fitBit s.tcr) = true then bitMask 5 else 0 } := by
  unfold tickFit
  split
  · rfl
  · simp

/-- The PIT after a tick (R661, D25). -/
def pitAfter (s : State) : Word := if s.pit = 0 then 0 else if s.pit = 1 then (if bitOf s.tcr 9 then s.pitReload else 0) else s.pit - 1

theorem tickPit_eq (s : State) : tickPit s =
    { s with pit := pitAfter s, tsr := s.tsr ||| if s.pit = 1 then bitMask 4 else 0 } := by
  have hpit {v : Word} (h : s.pit = v) : s = { s with pit := v } := by
    subst h
    rfl
  unfold tickPit pitAfter
  split
  next h => simpa [h] using hpit h
  next h => split <;> simp

/-- The TSR bit that a watchdog time-out sets without a reset: ENW, then WIS. -/
def watchdogEvents (s : State) : Word :=
  if watchdogDue s = true ∧ bitOf s.tsr 0 = false then bitMask 0
  else if watchdogDue s = true ∧ bitOf s.tsr 1 = false then bitMask 1
  else 0

theorem bitOf_watchdogEvents {s : State} {j : Nat} (hj : j < 32) : bitOf (watchdogEvents s) j = true ↔ WatchdogTimeout s ∧
    (j = 0 ∧ bitOf s.tsr 0 = false ∨ j = 1 ∧ bitOf s.tsr 0 = true ∧ bitOf s.tsr 1 = false) := by
  have hfirst := bitOf_mask (c := True) (k := 0) (by decide) hj
  rw [if_pos trivial] at hfirst
  rw [watchdogEvents, ← watchdogDue_iff]
  split
  next h => simp [hfirst, h]
  next h =>
    rw [bitOf_mask (by decide) hj]
    cases hdue : watchdogDue s <;> simp_all

/-! ## Resets -/

theorem resetTypeOf_eq_none_iff (c : BitVec 2) : resetTypeOf c = none ↔ c = 0 := by
  revert c
  decide

theorem resetTypeOf_code {c : BitVec 2} {type : ResetType} (h : resetTypeOf c = some type) : type.code = c := by
  have hall : ∀ c : BitVec 2, (resetTypeOf c).all fun type => type.code == c := by decide
  simpa [h] using hall c

/-- A reset field is zero if both of its bits are. -/
theorem resetField_eq_zero_iff (v : Word) : v.extractLsb' 28 2 = 0 ↔ v &&& 0x30000000 = 0 := by
  have hmask : ∀ i, i < 32 → BitVec.getLsbD (0x30000000 : Word) i = decide (i = 28 ∨ i = 29) := by decide
  constructor
  · intro h
    refine BitVec.eq_of_getLsbD_eq fun i hi => ?_
    have hbit (b : Nat) (hb : b < 2) : v.getLsbD (28 + b) = false := by
      simpa [BitVec.getLsbD_extractLsb', hb] using congrArg (·.getLsbD b) h
    rw [BitVec.getLsbD_and, hmask i hi, show (0 : Word).getLsbD i = false from BitVec.getLsbD_zero, Bool.and_eq_false_imp]
    intro hv
    rw [decide_eq_false_iff_not]
    rintro (rfl | rfl)
    · exact Bool.false_ne_true ((hbit 0 (by decide)).symm.trans hv)
    · exact Bool.false_ne_true ((hbit 1 (by decide)).symm.trans hv)
  · intro h
    refine BitVec.eq_of_getLsbD_eq fun b hb => ?_
    have hbit := congrArg (·.getLsbD (28 + b)) h
    rw [BitVec.getLsbD_and, hmask _ (by omega), decide_eq_true (by omega), Bool.and_true] at hbit
    rw [BitVec.getLsbD_extractLsb', hbit]
    simp

/-- The field that a two-bit code is written into, in a word whose bits are 0 there. -/
theorem extract_field {x : Word} {c : BitVec 2} {k : Nat} (hk : k + 2 ≤ 32) (hx : ∀ b, b < 2 → x.getLsbD (k + b) = false) :
    (x ||| (c.setWidth 32 <<< k)).extractLsb' k 2 = c := by
  refine BitVec.eq_of_getLsbD_eq fun b hb => ?_
  have h32 : k + b < 32 := by omega
  have hb32 : b < 32 := by omega
  rw [BitVec.getLsbD_extractLsb', BitVec.getLsbD_or, hx b hb, Bool.false_or, BitVec.getLsbD_shiftLeft, BitVec.getLsbD_setWidth]
  simp [hb, h32, hb32]

/-- What a reset leaves: `v` is the state before the tick or the instruction that resets. -/
theorem afterReset_resetMachine (type : ResetType) (watchdog : Option (BitVec 2)) (v : State) :
    AfterReset type.code (watchdog.getD (v.tsr.extractLsb' 28 2)) v (resetMachine type watchdog v) := by
  simp only [AfterReset, resetMachine, true_and, and_true]
  refine ⟨?code, ?wrs, ?enw, ?wis⟩
  case code =>
    have hmask : ∀ b, b < 2 → BitVec.getLsbD (0xFFFC0000 : Word) (8 + b) = false := by decide
    exact extract_field (by decide) fun b hb => (BitVec.getLsbD_and ..).trans (Bool.and_eq_false_imp.2 fun _ => hmask b hb)
  case wrs =>
    have hmask : ∀ b, b < 2 → BitVec.getLsbD (0x0C000000 : Word) (28 + b) = false := by decide
    have hkept : ∀ b, b < 2 → BitVec.getLsbD (0x30000000 : Word) (28 + b) = true := by decide
    have hfree : ∀ b, b < 2 → (v.free 55 &&& 0x0C000000).getLsbD (28 + b) = false := fun b hb => by
      rw [BitVec.getLsbD_and, hmask b hb, Bool.and_false]
    cases watchdog with
    | some c => exact (congrArg _ (BitVec.or_comm _ _)).trans (extract_field (by decide) hfree)
    | none =>
      refine BitVec.eq_of_getLsbD_eq fun b hb => ?_
      have hbit := hfree b hb
      simp only [Option.getD_none]
      rw [BitVec.getLsbD_extractLsb', BitVec.getLsbD_extractLsb', BitVec.getLsbD_or, hbit, BitVec.getLsbD_and, hkept b hb,
        Bool.and_true, Bool.or_false]
  case enw | wis =>
    cases watchdog with
    | some c => simp [bitOf]
    | none => simp [bitOf]

/-- The time base and the FIT after a tick. -/
def afterTimeBase (s : State) : State :=
  { s with
    tbu := (tickTimeBase s).tbu
    tbl := s.tbl + 1
    tsr := s.tsr ||| if fitDue s = true then bitMask 5 else 0 }

theorem tickFit_tickTimeBase (s : State) : tickFit s.tbl (tickTimeBase s) = afterTimeBase s := by
  have hdue : rises s.tbl (tickTimeBase s).tbl (fitBit (tickTimeBase s).tcr) = fitDue s := by
    rw [tickTimeBase_tbl]
    rfl
  rw [tickFit_eq, hdue, afterTimeBase, ← tickTimeBase_tbl]
  rfl

theorem bitOf_afterTimeBase {s : State} {j : Nat} (hj : j < 5) : bitOf (afterTimeBase s).tsr j = bitOf s.tsr j := by
  have h5 : bitOf (if fitDue s = true then bitMask 5 else 0) j = false := by
    rw [← Bool.not_eq_true, bitOf_mask (by decide) (by omega)]
    omega
  rw [afterTimeBase, bitOf_or, h5, Bool.or_false]

section
variable {s : State} (hfrozen : s.timersFrozen = false)
include hfrozen

theorem tick_quiet (hdue : watchdogDue s = false) : tick s = tickPit (afterTimeBase s) := by
  have hrises : rises s.tbl (afterTimeBase s).tbl (watchdogBit (afterTimeBase s).tcr) = false := hdue
  simp only [tick, hfrozen, tickFit_tickTimeBase, hrises, Bool.false_eq_true, if_false]

/-- A tick with a watchdog time-out, by what the watchdog does. -/
theorem tick_due (hdue : watchdogDue s = true) {action : WatchdogAction} (h : (afterTimeBase s).watchdogAction = action) :
    (action = .enable → tick s = tickPit { afterTimeBase s with tsr := (afterTimeBase s).tsr ||| bitMask 0 }) ∧
    (action = .interrupt → tick s = tickPit { afterTimeBase s with tsr := (afterTimeBase s).tsr ||| bitMask 1 }) ∧
    (∀ type, action = .reset type → tick s = resetMachine type (some (s.tcr.extractLsb' 28 2)) (afterTimeBase s)) ∧
    (action = .nothing → tick s = tickPit (afterTimeBase s)) := by
  have hrises : rises s.tbl (afterTimeBase s).tbl (watchdogBit (afterTimeBase s).tcr) = true := hdue
  simp only [tick, hfrozen, tickFit_tickTimeBase, hrises, h, Bool.false_eq_true, if_false, if_true]
  exact ⟨by rintro rfl; rfl, by rintro rfl; rfl, by rintro type rfl; rfl, by rintro rfl; rfl⟩

/-- A tick that ends in no reset. -/
theorem tick_eq (hno : WatchdogTimeout s → bitOf s.tsr 0 = false ∨ bitOf s.tsr 1 = false ∨ s.tcr &&& 0x30000000 = 0) :
    tick s = tickPit { afterTimeBase s with tsr := (afterTimeBase s).tsr ||| watchdogEvents s } := by
  cases hdue : watchdogDue s with
  | false => simp [tick_quiet hfrozen hdue, watchdogEvents, hdue]
  | true =>
    obtain ⟨henable, hinterrupt, -, hnothing⟩ := tick_due hfrozen hdue rfl
    cases h0 : bitOf s.tsr 0 with
    | false => simp [henable (by simp [State.watchdogAction, bitOf_afterTimeBase, h0]), watchdogEvents, hdue, h0]
    | true =>
      cases h1 : bitOf s.tsr 1 with
      | false => simp [hinterrupt (by simp [State.watchdogAction, bitOf_afterTimeBase, h0, h1]), watchdogEvents, hdue, h0, h1]
      | true =>
        have hfield : s.tcr &&& 0x30000000 = 0 := by simpa [h0, h1] using hno ((watchdogDue_iff s).1 hdue)
        have hnone : resetTypeOf ((afterTimeBase s).tcr.extractLsb' 28 2) = none :=
          (resetTypeOf_eq_none_iff _).2 ((resetField_eq_zero_iff _).2 hfield)
        simp [hnothing (by simp [State.watchdogAction, bitOf_afterTimeBase, h0, h1, hnone]), watchdogEvents, h0, h1]

end

/-- The TSR after a tick that ends in no reset, bit by bit. -/
theorem bitOf_tick {s : State} (hfrozen : s.timersFrozen = false)
    (hno : WatchdogTimeout s → bitOf s.tsr 0 = false ∨ bitOf s.tsr 1 = false ∨ s.tcr &&& 0x30000000 = 0) {j : Nat} (hj : j < 32) :
    bitOf (tick s).tsr j = true ↔ bitOf s.tsr j = true ∨ (j = 5 ∧ FitEvent s) ∨ (WatchdogTimeout s ∧
      (j = 0 ∧ bitOf s.tsr 0 = false ∨ j = 1 ∧ bitOf s.tsr 0 = true ∧ bitOf s.tsr 1 = false)) ∨ (j = 4 ∧ s.pit = 1) := by
  have htsr : (tick s).tsr = ((s.tsr ||| if fitDue s = true then bitMask 5 else 0) ||| watchdogEvents s) |||
      if s.pit = 1 then bitMask 4 else 0 := by
    rw [tick_eq hfrozen hno, tickPit_eq]
    rfl
  rw [htsr, bitOf_or, bitOf_or, bitOf_or, Bool.or_eq_true, Bool.or_eq_true, Bool.or_eq_true, bitOf_mask (by decide) hj,
    bitOf_mask (by decide) hj, bitOf_watchdogEvents hj, fitDue_iff, or_assoc, or_assoc]

/-- Settles O55. -/
theorem timerTick : Obligations.TimerTick := by
  unfold Obligations.TimerTick
  intro s
  refine ⟨fun hfrozen => ?frozen, fun hfrozen hno => ?running⟩
  case frozen => rw [tick, hfrozen, if_pos rfl]
  case running =>
    have hbit {j : Nat} (hj : j < 32) := bitOf_tick hfrozen hno hj
    have hframe : tick s = { s with
        tbu := (tickTimeBase s).tbu, tbl := (tickTimeBase s).tbl, pit := pitAfter s, tsr := (tick s).tsr } := by
      rw [tickTimeBase_tbl, tick_eq hfrozen hno, tickPit_eq]
      rfl
    have htbu : (tick s).tbu = (tickTimeBase s).tbu := by rw [hframe]
    have htbl : (tick s).tbl = (tickTimeBase s).tbl := by rw [hframe]
    have hpit : (tick s).pit = pitAfter s := by rw [hframe]
    refine ⟨by rw [htbu, htbl, tickTimeBase_toNat], hpit, ?pis, ?fis, fun j hj => ?others, ?frame⟩
    case pis => simpa using hbit (j := 4) (by decide)
    case fis => simpa using hbit (j := 5) (by decide)
    case others =>
      obtain ⟨h0, h1, h4, h5⟩ : j ≠ 0 ∧ j ≠ 1 ∧ j ≠ 4 ∧ j ≠ 5 := by omega
      rw [Bool.eq_iff_iff, hbit (by omega)]
      simp [h0, h1, h4, h5]
    case frame =>
      rw [htbu, htbl, hpit]
      exact hframe

/-- Settles O56. -/
theorem watchdogTimeouts : Obligations.WatchdogTimeouts := by
  unfold Obligations.WatchdogTimeouts
  intro s hfrozen
  have hno (h : ¬(bitOf s.tsr 0 = true ∧ bitOf s.tsr 1 = true ∧ s.tcr &&& 0x30000000 ≠ 0)) :
      bitOf s.tsr 0 = false ∨ bitOf s.tsr 1 = false ∨ s.tcr &&& 0x30000000 = 0 := by
    cases h0 : bitOf s.tsr 0 <;> cases h1 : bitOf s.tsr 1 <;> simp_all
  refine ⟨fun hquiet => ?quiet, fun hdue => ⟨fun h0 => ?enable, fun h0 h1 => ?interrupt, fun h0 h1 hfield => ?nothing,
    fun h0 h1 hfield => ?reset⟩⟩
  case quiet =>
    have hbit {j : Nat} (hj : j < 32) := bitOf_tick hfrozen (fun h => absurd h hquiet) hj
    exact ⟨by rw [Bool.eq_iff_iff, hbit (by decide)]; simp [hquiet], by rw [Bool.eq_iff_iff, hbit (by decide)]; simp [hquiet]⟩
  case enable =>
    have hbit {j : Nat} (hj : j < 32) := bitOf_tick hfrozen (fun _ => .inl h0) hj
    exact ⟨by simpa [hdue, h0] using hbit (j := 0) (by decide),
      by rw [Bool.eq_iff_iff, hbit (by decide)]; simp [h0]⟩
  case interrupt =>
    have hbit {j : Nat} (hj : j < 32) := bitOf_tick hfrozen (fun _ => .inr (.inl h1)) hj
    exact ⟨by simpa [h0] using hbit (j := 0) (by decide), by simpa [hdue, h0, h1] using hbit (j := 1) (by decide)⟩
  case nothing =>
    have hbit {j : Nat} (hj : j < 32) := bitOf_tick hfrozen (fun _ => .inr (.inr hfield)) hj
    exact ⟨by simpa [h0] using hbit (j := 0) (by decide), by simpa [h1] using hbit (j := 1) (by decide)⟩
  case reset =>
    have htype : resetTypeOf (s.tcr.extractLsb' 28 2) ≠ none := by
      rwa [Ne, resetTypeOf_eq_none_iff, resetField_eq_zero_iff]
    obtain ⟨type, htype⟩ := Option.ne_none_iff_exists'.1 htype
    have haction : (afterTimeBase s).watchdogAction = .reset type := by
      have htype' : resetTypeOf ((afterTimeBase s).tcr.extractLsb' 28 2) = some type := htype
      simp [State.watchdogAction, bitOf_afterTimeBase, h0, h1, htype']
    obtain ⟨-, -, hreset, -⟩ := tick_due hfrozen ((watchdogDue_iff s).2 hdue) haction
    have hafter := afterReset_resetMachine type (some (s.tcr.extractLsb' 28 2)) (afterTimeBase s)
    rw [resetTypeOf_code htype] at hafter
    rw [hreset type rfl]
    exact hafter

/-! ## The reset table -/

/-- Marking CR0 keeps what a reset leaves. -/
theorem afterReset_markCr0 {code wrs : BitVec 2} {s t : State} (h : AfterReset code wrs s t) (nr : Bool) :
    AfterReset code wrs s (t.markCr0 nr) := by
  cases nr
  · exact h
  · exact h

/-- Settles O57. -/
theorem resetLeavesTheTable : Obligations.ResetLeavesTheTable := by
  unfold Obligations.ResetLeavesTheTable
  refine ⟨fun s type htype => ?host, fun s r nr hpr hfield => ?mtspr, ?first, rfl⟩
  case host =>
    refine ⟨resetMachine type none { s with inputs := s.inputs.tail, entry := none }, ?_, ?_⟩
    · rw [step, htype]
    · have hafter := afterReset_resetMachine type none { s with inputs := s.inputs.tail, entry := none }
      cases type <;> exact hafter
  case mtspr =>
    have htype : resetTypeOf ((s.reg r).extractLsb' 28 2) ≠ none := by
      rwa [Ne, resetTypeOf_eq_none_iff, resetField_eq_zero_iff]
    obtain ⟨type, htype⟩ := Option.ne_none_iff_exists'.1 htype
    have hwrite : writeSpr (0x3F2 : BitVec 10).toNat (s.reg r) s = resetMachine type none s := by
      have hdbcr0 : writeSpr (0x3F2 : BitVec 10).toNat (s.reg r) s = writeDbcr0 (s.reg r) s := rfl
      rw [hdbcr0, writeDbcr0, htype]
    have hafter := afterReset_resetMachine type none s
    rw [resetTypeOf_code htype] at hafter
    exact ⟨_, (exec_mtspr fun _ => hpr).trans (by rw [hwrite]), afterReset_markCr0 hafter nr⟩
  case first =>
    unfold AfterReset
    and_intros
    all_goals rfl

end Sys2Proof.Proofs
end

section
/-! PROOF. The debug events of internal debug mode (60_exceptions.md R618, R671, R676): how a step recognises, records and takes them, and
from that the instruction address compares. -/
namespace Sys2Proof.Proofs
open Sys2Proof Sys2Proof.Machine Sys2Proof.Laws

/-! ## Recording events -/

/-- Recording events of DBSR: their bits, and IDE with MSR[DE] = 0. -/
theorem recordDebugEvents_eq {bits : Word} (hbits : bits &&& debugEventMask = bits) (s : State) :
    recordDebugEvents bits s = { s with dbsr := s.dbsr ||| bits ||| (if bits != 0 && !s.deBit then 0x00100000 else 0) } := by
  have hide : bitMask 11 = 0x00100000 := rfl
  by_cases hzero : bits = 0
  · simp [recordDebugEvents, hzero]
  · cases hde : s.deBit
    · rw [recordDebugEvents_disabled hzero hde, hbits, hide, bne_iff_ne.2 hzero, BitVec.or_assoc]
      rfl
    · simp [recordDebugEvents_enabled hzero hde, hbits]

/-- Words whose bits are events of DBSR are recorded as they are. -/
theorem and_debugEventMask {P : Nat → Prop} {w : Word} (hw : BitsAre P w) (hP : ∀ j, P j → j < 14) : w &&& debugEventMask = w := by
  refine eq_of_bits fun j hj => ?_
  rw [bitOf_and]
  cases hbit : bitOf w j
  · rfl
  · have hmask : ∀ k : Fin 14, bitOf debugEventMask k = true := by decide
    rw [hmask ⟨j, hP j ((hw j hj).1 hbit)⟩, Bool.and_true]

theorem iacHits_lt {s : State} {j : Nat} (h : IacHits s j) : j < 14 := by
  obtain ⟨rfl, -⟩ | ⟨rfl, -⟩ | ⟨rfl, -⟩ | ⟨rfl, -⟩ := h <;> decide

/-! ## The boundary -/

section
variable {s u t v : State}

theorem internalDebug_eq_true (hidm : u.idmBit = true) (hext : u.externalDebugMode = false) : u.internalDebug = true := by
  simp [State.internalDebug, hidm, hext]

/-- The step of an input without ticks, a reset or the unconditional event. -/
theorem step_of_input {external critical : Bool} (h : s.inputs.headD HostInput.idle = ⟨0, external, critical, none, false⟩)
    (hu : u = { s with inputs := s.inputs.tail, entry := none }) :
    step s = boundary ⟨0, external, critical, none, false⟩ u := by
  have hreset : (s.inputs.headD HostInput.idle).reset = none := by rw [h]
  rw [step_eq_boundary hreset rfl, h, hu]
  rfl

/-! ## Events before an instruction -/

theorem beforeInstruction_zero (s : State) (go : State → Result) : beforeInstruction 0 s go = go s := by
  simp [beforeInstruction]

/-- Events with MSR[DE] = 1: the Debug interrupt in place of the instruction. -/
theorem beforeInstruction_enabled {events : Word} (hevents : events ≠ 0) (hmode : u.internalDebug = true) (hde : u.deBit = true)
    (go : State → Result) :
    beforeInstruction events u go = .next (takeInterrupt .debug u.pc (recordDebugEvents events u)) := by
  rw [beforeInstruction, hmode, beq_false_of_ne hevents, hde]
  rfl

/-- Events that do not interrupt are recorded, and the instruction goes on. -/
theorem beforeInstruction_recorded {events : Word} (hgo : u.deBit = false ∨ events = 0) (hmode : u.internalDebug = true)
    (go : State → Result) : beforeInstruction events u go = go (recordDebugEvents events u) := by
  by_cases hzero : events = 0
  · simp [hzero, beforeInstruction, recordDebugEvents]
  · rw [beforeInstruction, hmode, beq_false_of_ne hzero, hgo.resolve_right hzero]
    rfl

/-! ## Events after an instruction -/

/-- Without value compares the data compares leave an instruction's result alone. -/
theorem underCompares_of_noValue (hv : ∀ second store, (compareOf s second store).comparesValue = false) (i : Instr) (t : State) :
    underCompares i s t = t := by
  unfold underCompares
  split
  · rfl
  next x _ =>
    have h1 : (s.compare1 x.store).comparesValue = false := hv false x.store
    have h2 : (s.compare2 x.store).comparesValue = false := hv true x.store
    have hdraws : s.compareDraws x = 0 := by simp [State.compareDraws, DataCompare.isOpen, h1, h2]
    have hstop : s.stopPart t x = none := by simp [State.stopPart, h1, h2]
    rw [hdraws, hstop]
    split <;> rfl

/-- An instruction without a branch event and without value compares. -/
theorem executeInstr_of_noValue {i : Instr} (hbranch : branchEvents i v = 0)
    (hv : ∀ second store, (compareOf v second store).comparesValue = false) (hexec : exec i v = .next t) :
    executeInstr i v = .next (afterInstruction (dacEvents i v t) t) := by
  rw [executeInstr, hbranch, beforeInstruction_zero, hexec]
  simp only [underCompares_of_noValue hv]

/-- Without a data address compare and the completion event only the exception event is left. -/
theorem afterInstruction_zero (hic : bitOf t.dbcr0 4 = false) : afterInstruction 0 t = recordException t := by
  simp [afterInstruction, hic, recordDebugEvents]

/-! ## The enables -/

theorem bitOf_eq_false_of_and {x m : Word} (h : x &&& m = 0) {j : Nat} (hm : bitOf m j = true) : bitOf x j = false := by
  have hj : bitOf (x &&& m) j = bitOf x j := by rw [bitOf_and, hm, Bool.and_true]
  rw [← hj, h]
  simp [bitOf]

/-- With D1R, D2R, D1W and D2W off no data compare is enabled. -/
theorem compareOf_disabled (h : v.dbcr1 &&& 0xF0000000 = 0) (second store : Bool) :
    (compareOf v second store).enabled = false := by
  cases second <;> cases store <;> exact bitOf_eq_false_of_and h rfl

theorem comparesValue_of_disabled (h : v.dbcr1 &&& 0xF0000000 = 0) (second store : Bool) :
    (compareOf v second store).comparesValue = false := by
  rw [DataCompare.comparesValue, compareOf_disabled h, Bool.false_and]

theorem dacEvents_of_disabled (h : v.dbcr1 &&& 0xF0000000 = 0) (i : Instr) (t : State) : dacEvents i v t = 0 := by
  refine bitsAre_unique (dacEvents_bits i v t (comparesValue_of_disabled h)) fun j _ => ⟨fun hj => ?_, ?_⟩
  · simp [bitOf] at hj
  · rintro ⟨store, second, -, -, -, -, -, -, ⟨hon, -⟩, -⟩
    have hoff : bitOf v.dbcr1 ((if store then 2 else 0) + (if second then 1 else 0)) = false := by
      cases second <;> cases store <;> exact bitOf_eq_false_of_and h rfl
    rw [hoff] at hon
    contradiction

theorem branchEvents_off {i : Instr} (h : bitOf v.dbcr0 5 = false) : branchEvents i v = 0 := by simp [branchEvents, h]

/-! ## The instruction at pc -/

/-- A fetch that succeeds: the place, where no bus error is, and its bytes. -/
theorem fetch_eq_ok_iff {bytes : List Byte} : s.fetch = .ok bytes ↔ ∃ ra little, s.fetchPlace = .real ra little ∧
    s.busError false (wordRealAddresses ra) = false ∧ s.fetchBytes ra little = bytes := by
  unfold State.fetch
  cases s.fetchPlace with
  | stopped r => simp
  | real ra little =>
    constructor
    · intro h
      cases hbus : s.busError false (wordRealAddresses ra)
      · exact ⟨ra, little, rfl, hbus, by simpa [hbus] using h⟩
      · simp [hbus] at h
    · rintro ⟨_, _, ⟨⟩, hbus, rfl⟩
      simp [hbus]

/-- The bytes of a fetch that succeeds do not depend on the events recorded. -/
theorem fetch_of_events {bytes : List Byte} (hu : u = { s with dbsr := u.dbsr, entry := u.entry }) (hfetch : s.fetch = .ok bytes) :
    u.fetch = .ok bytes := by
  obtain ⟨ra, little, hplace, hbus, hbytes⟩ := fetch_eq_ok_iff.1 hfetch
  have hplace' : u.fetchPlace = .real ra little := by
    cases hir : s.irBit
    · rw [fetchPlace_untranslated hir] at hplace
      rw [hu, fetchPlace_untranslated (by exact hir)]
      exact hplace
    · rw [fetchPlace_eq_real_iff hir] at hplace
      rw [hu, fetchPlace_eq_real_iff (by exact hir)]
      exact hplace
  refine fetch_eq_ok_iff.2 ⟨ra, little, hplace', ?_, ?_⟩
  · rw [hu]
    exact hbus
  · rw [hu]
    exact hbytes

/-- The instruction fetched at pc, where the instruction address compares do not interrupt. -/
theorem executeNext_eq {bytes rest : List Byte} {i : Instr} (hmode : u.internalDebug = true)
    (hgo : u.deBit = false ∨ u.iacEvents = 0) (hfetch : u.fetch = .ok bytes) (hdecode : decode bytes = .ok (i, rest)) :
    executeNext u = executeInstr i (recordDebugEvents u.iacEvents u).afterFetch := by
  have hfetch' : (recordDebugEvents u.iacEvents u).fetch = .ok bytes := by
    refine fetch_of_events ?_ hfetch
    rw [recordDebugEvents_frame]
  rw [executeNext, beforeInstruction_recorded hgo hmode, hfetch']
  simp only [hdecode]

theorem afterFetch_frame (s : State) : s.afterFetch = { s with hostLog := s.afterFetch.hostLog } := by
  obtain ⟨log, hlog⟩ := afterFetch_eq_log s
  rw [hlog]

@[simp] theorem afterFetch_dbcr0 (s : State) : s.afterFetch.dbcr0 = s.dbcr0 := by rw [afterFetch_frame]
@[simp] theorem afterFetch_dbcr1 (s : State) : s.afterFetch.dbcr1 = s.dbcr1 := by rw [afterFetch_frame]

/-! ## The instruction address compares -/

theorem recordException_off (h : bitOf t.dbcr0 6 = false) : recordException t = t := by
  rw [recordException]
  split
  · rfl
  · simp [h]

/-- The instruction address compares `w` at the instruction at pc. -/
theorem executeNext_addressCompare {w : Word} (hmode : u.internalDebug = true) (hiac : u.iacEvents = w)
    (hmask : w &&& debugEventMask = w) :
    (u.deBit = true → w ≠ 0 → ∃ t, executeNext u = .next t ∧ Takes .debug u.pc u t ∧ t.dbsr = u.dbsr ||| w ∧ t.esr = u.esr ∧
      t.dear = u.dear) ∧
    (u.deBit = false ∨ w = 0 → ∀ (bytes rest : List Byte) (i : Instr) (t : State), u.fetch = .ok bytes →
      decode bytes = .ok (i, rest) → u.dbcr0 &&& 0x0F000000 = 0 → u.dbcr1 &&& 0xF0000000 = 0 →
      exec i (State.afterFetch { u with dbsr := u.dbsr ||| (if w = 0 then 0 else w ||| 0x00100000) }) = .next t →
      t.dbcr0 = u.dbcr0 → executeNext u = .next t) := by
  refine ⟨fun hde hne => ?interrupt, fun hgo bytes rest i t hfetch hdecode hevents hdac hexec hdbcr0 => ?go⟩
  case interrupt =>
    rw [executeNext, hiac, beforeInstruction_enabled hne hmode hde, recordDebugEvents_enabled hne hde, hmask]
    exact ⟨_, rfl, takes_of_agree rfl, takeInterrupt_dbsr .., takeInterrupt_esr .., takeInterrupt_dear ..⟩
  case go =>
    have hrecorded : recordDebugEvents w u = { u with dbsr := u.dbsr ||| (if w = 0 then 0 else w ||| 0x00100000) } := by
      rw [recordDebugEvents_eq hmask]
      by_cases hzero : w = 0
      · simp [hzero]
      · rw [bne_iff_ne.2 hzero, hgo.resolve_right hzero, if_neg hzero, BitVec.or_assoc]
        rfl
    have off {j : Nat} (hj : bitOf 0x0F000000 j = true) := bitOf_eq_false_of_and hevents hj
    have hic : bitOf t.dbcr0 4 = false := hdbcr0 ▸ off rfl
    have hede : bitOf t.dbcr0 6 = false := hdbcr0 ▸ off rfl
    rw [executeNext_eq hmode (hiac ▸ hgo) hfetch hdecode, hiac, hrecorded]
    generalize hv : State.afterFetch _ = v at hexec ⊢
    have hbranch : bitOf v.dbcr0 5 = false := by
      rw [← hv, afterFetch_dbcr0]
      exact off rfl
    have hdac' : v.dbcr1 &&& 0xF0000000 = 0 := by
      rw [← hv, afterFetch_dbcr1]
      exact hdac
    rw [executeInstr_of_noValue (branchEvents_off hbranch) (comparesValue_of_disabled hdac') hexec,
      dacEvents_of_disabled hdac', afterInstruction_zero hic, recordException_off hede]

end

/-- Settles O58. -/
theorem addressCompareInterrupts : Obligations.AddressCompareInterrupts := by
  unfold Obligations.AddressCompareInterrupts
  intro s w hinputs hdebug hidm hext hpending hwait hw
  have hidle : s.inputs.headD HostInput.idle = ⟨0, false, false, none, false⟩ := by rw [hinputs]; rfl
  have htail : s.inputs = s.inputs.tail := by rw [hinputs]; rfl
  have hstep : step s = executeNext { s with entry := none } := by
    rw [step_of_input hidle (congrArg (fun l => ({ s with inputs := l, entry := none } : State)) htail)]
    exact boundary_eq_executeNext hdebug hpending hwait
  have hiac : State.iacEvents { s with entry := none } = w := bitsAre_unique (iacEvents_bits _) hw
  rw [hstep]
  obtain ⟨hinterrupt, hgo⟩ := executeNext_addressCompare (u := { s with entry := none }) (internalDebug_eq_true hidm hext) hiac
    (and_debugEventMask hw fun _ => iacHits_lt)
  exact ⟨hinterrupt, fun hde bytes rest i t hfetch => hgo hde bytes rest i t (fetch_of_events rfl hfetch)⟩

end Sys2Proof.Proofs
end

section
/-! PROOF. A recorded debug event against a critical input (60_exceptions.md R618): the clause of `DebugEvents` on it writes the host's
input with critical and external in each other's places. -/
namespace Sys2Proof.Proofs
open Sys2Proof Sys2Proof.Machine Sys2Proof.Laws

/-- A branch taken event in DBSR, internal debug mode, MSR[CE, DE] = 1, and a critical input. -/
def eventAndCriticalInput : State :=
  { State.reset with dbcr0 := 0x40000000, dbsr := 0x40000000, msr := 0x00020200, inputs := [⟨0, false, true, none, false⟩] }

/-- The critical input ranks above the branch taken event. -/
theorem step_eventAndCriticalInput : ∃ t, step eventAndCriticalInput = .next t ∧ t.entry = some .criticalInput := by
  have hpending : pendingInterrupts ⟨0, false, true, none, false⟩ { eventAndCriticalInput with inputs := [] } =
      [.criticalInput, .debug] := rfl
  have hdebug : State.debugRefusal { eventAndCriticalInput with inputs := [] } = none := rfl
  refine ⟨takeInterrupt .criticalInput eventAndCriticalInput.pc { eventAndCriticalInput with inputs := [] }, ?_,
    takeInterrupt_entry ..⟩
  rw [step_of_input (s := eventAndCriticalInput) (u := { eventAndCriticalInput with inputs := [] }) rfl rfl, boundary, hdebug]
  simp only [hpending]
  rfl

/-- Refutes O59: its clause on a recorded event takes `⟨0, critical, external, none, false⟩` for the host's input, but `HostInput` lists
external before critical. So it lets a critical input with MSR[CE] = 1 pass for an external one, and the Debug interrupt that it claims
is the critical input's. -/
theorem not_debugEvents : ¬ Obligations.DebugEvents := by
  unfold Obligations.DebugEvents
  intro h
  obtain ⟨-, hrecorded, -⟩ := h eventAndCriticalInput rfl rfl rfl
  obtain ⟨t, ht, ⟨hentry, -⟩, -⟩ := hrecorded false true rfl rfl (by decide) (.inr (.inr ⟨rfl, .inl rfl⟩))
  obtain ⟨t', ht', hentry'⟩ := step_eventAndCriticalInput
  cases ht.symm.trans ht'
  cases hentry.symm.trans hentry'

end Sys2Proof.Proofs
end

section
/-! PROOF. The data value compares of a scalar load or store (60_exceptions.md R671, 10_state.md R91, R94, R95): the bytes it moves, what
they hit in the aligned word of the first, and what a hit leaves of the access. -/
namespace Sys2Proof.Proofs
open Sys2Proof Sys2Proof.Machine Sys2Proof.Laws

/-! ## What a scalar load or store moves -/

/-- The storage address of byte k of an operand. -/
def place (s : State) (store : Bool) (ea : Word) (k : Nat) : Nat := (s.realData store (ea + BitVec.ofNat 32 k)).toNat

/-- What a scalar load or store of n bytes at ea moves and leaves; r is its target or its source. -/
structure ScalarMoves (i : Instr) (r : Reg) (store : Bool) (ea : Word) (n : Nat) (s t : State) : Prop where
  width : n = 1 ∨ n = 2 ∨ n = 4
  frame : t = { s with gpr := t.gpr, cr := t.cr, mem := t.mem, pc := t.pc, freeCount := t.freeCount }
  loads : store = false → t.mem = s.mem
  moved : (transfer i s).bytes s ea n =
    (List.range n).map fun k => (ea + BitVec.ofNat 32 k, Memory.read t.mem (place s store ea k))
  misaligned : (transfer i s).isMisaligned ea n = (ea.toNat % n != 0)
  storage : Memory.wf s.mem = true → Memory.wf t.mem = true
  targets : ∀ c, (transfer i s).targetsPast c = if store then [] else [r]
  told : transfer i s ≠ .untold

section
variable {s t : State} {r ra rb : Reg} {d : BitVec 16} {nr : Bool} {ea : Word}

theorem eq_of_runsTo {i : Instr} {p : State → Prop} (h : RunsTo i s p) (hexec : exec i s = .next t) : p t := by
  obtain ⟨u, hu, hp⟩ := h
  cases hu.symm.trans hexec
  exact hp

theorem transfer_scalarLoad : ∀ l ∈ scalarLoads r ra rb d nr, transfer l.instr s = .load r := by
  simp only [scalarLoads, List.forall_mem_cons, List.not_mem_nil, false_implies, implies_true, and_true]
  and_intros
  all_goals rfl

theorem transfer_scalarStore : ∀ l ∈ scalarStores r ra rb d nr, transfer l.instr s = .store (operandOf l (s.reg r)) := by
  simp only [scalarStores, List.forall_mem_cons, List.not_mem_nil, false_implies, implies_true, and_true]
  and_intros
  all_goals rfl

theorem scalarLoad_width : ∀ l ∈ scalarLoads r ra rb d nr, l.width = 1 ∨ l.width = 2 ∨ l.width = 4 := by simp [scalarLoads]

theorem scalarStore_width : ∀ l ∈ scalarStores r ra rb d nr, l.width = 1 ∨ l.width = 2 ∨ l.width = 4 := by simp [scalarStores]

theorem scalarMoves_load {l : ScalarLoad} (hl : l ∈ scalarLoads r ra rb d nr)
    (href : dataReference l.instr s = some (false, ea, l.width)) (hacc : s.allAccessible false (byteAddresses ea l.width) = true)
    (hexec : exec l.instr s = .next t) : ScalarMoves l.instr r false ea l.width s t := by
  obtain ⟨⟨-, -, ⟨-, -, hframe⟩, hmem⟩, hlog⟩ := eq_of_runsTo (scalarLoad_accessible hl href hacc) hexec
  have htransfer : transfer l.instr s = .load r := transfer_scalarLoad l hl
  rw [hlog] at hframe
  refine ⟨scalarLoad_width l hl, ?_, fun _ => hmem, ?_, ?_, ?_, ?_, ?_⟩
  · rw [hframe]
  · rw [htransfer, hmem]
    refine List.map_congr_left fun k hk => ?_
    rw [loadByte_accessible _ _ (List.mem_range.1 hk) hacc]
    rfl
  · rw [htransfer]; rfl
  · rw [hmem]; exact id
  · rw [htransfer]; exact fun _ => rfl
  · rw [htransfer]; nofun

theorem scalarMoves_store (hm : Memory.wf s.mem = true) {l : ScalarStore} (hl : l ∈ scalarStores r ra rb d nr)
    (href : dataReference l.instr s = some (true, ea, l.width)) (hacc : s.allAccessible true (byteAddresses ea l.width) = true)
    (hexec : exec l.instr s = .next t) : ScalarMoves l.instr r true ea l.width s t := by
  obtain ⟨hpos, hwidth⟩ := scalarStore_form l hl
  obtain ⟨⟨-, -, -, hframe⟩, hmem, hlog⟩ :=
    eq_of_runsTo (scalarStore_runs hl href (dataStop_none hacc (operandParts_partFails hacc))) hexec
  have htransfer : transfer l.instr s = .store (operandOf l (s.reg r)) := transfer_scalarStore l hl
  rw [memWrite_accessible hpos hacc] at hmem hlog
  rw [hlog] at hframe
  obtain ⟨hholds, -⟩ := stored_operandBytes hm hwidth hacc t hmem
  refine ⟨scalarStore_width l hl, ?_, nofun, ?_, ?_, ?_, ?_, ?_⟩
  · rw [hframe]
  · rw [htransfer]
    refine List.ext_getElem? fun k => ?_
    by_cases hk : k < l.width
    · have hbyte := hholds k hk
      rw [← byteOfNat_eq] at hbyte
      have hget := operandBytes_getElem s ea l.width (operandOf l (s.reg r)) k hk
      rw [← BitVec.eq_of_toNat_eq hbyte] at hget
      simp [Transfer.bytes, hget, hk, place]
    · have hget : (s.operandBytes ea l.width (operandOf l (s.reg r)))[k]? = none :=
        List.getElem?_eq_none (by rw [operandBytes_length]; omega)
      simp [Transfer.bytes, hget, hk]
  · rw [htransfer]; rfl
  · rw [hmem]; exact fun hm => wf_storeBytes hm _
  · rw [htransfer]; exact fun _ => rfl
  · rw [htransfer]; nofun

/-- The loads and stores of one operand are the rows of `scalarLoads` and `scalarStores`. -/
theorem scalarReferences_rows : ∀ i ∈ scalarReferences r ra rb d nr, (∃ l ∈ scalarLoads r ra rb d nr, l.instr = i) ∨
    ∃ l ∈ scalarStores r ra rb d nr, l.instr = i := by
  simp [scalarReferences, scalarLoads, scalarStores]

theorem dataReference_scalarLoad : ∀ l ∈ scalarLoads r ra rb d nr, ∀ store ea n,
    dataReference l.instr s = some (store, ea, n) → store = false ∧ n = l.width := by
  simp only [scalarLoads, List.forall_mem_cons, List.not_mem_nil, false_implies, implies_true, and_true]
  and_intros
  all_goals
    rintro _ _ _ ⟨⟩
    exact ⟨rfl, rfl⟩

theorem dataReference_scalarStore : ∀ l ∈ scalarStores r ra rb d nr, ∀ store ea n,
    dataReference l.instr s = some (store, ea, n) → store = true ∧ n = l.width := by
  simp only [scalarStores, List.forall_mem_cons, List.not_mem_nil, false_implies, implies_true, and_true]
  and_intros
  all_goals
    rintro _ _ _ ⟨⟩
    exact ⟨rfl, rfl⟩

/-- A scalar load or store of accessible bytes. -/
theorem scalarMoves {i : Instr} {store : Bool} {n : Nat} (hm : Memory.wf s.mem = true) (hi : i ∈ scalarReferences r ra rb d nr)
    (href : dataReference i s = some (store, ea, n)) (hacc : s.allAccessible store (byteAddresses ea n) = true)
    (hexec : exec i s = .next t) : ScalarMoves i r store ea n s t := by
  obtain ⟨l, hl, rfl⟩ | ⟨l, hl, rfl⟩ := scalarReferences_rows i hi
  · obtain ⟨rfl, rfl⟩ := dataReference_scalarLoad l hl _ _ _ href
    exact scalarMoves_load hl href hacc hexec
  · obtain ⟨rfl, rfl⟩ := dataReference_scalarStore l hl _ _ _ href
    exact scalarMoves_store hm hl href hacc hexec

end

/-! ## The aligned word of the first byte -/

theorem wordAligned_toNat (a : Word) : (a &&& 0xFFFFFFFC).toNat = a.toNat - a.toNat % 4 := by
  have hshift : (a &&& 0xFFFFFFFC : Word) = a >>> 2 <<< 2 := by
    refine BitVec.eq_of_getLsbD_eq fun i hi => ?_
    interval_cases i <;> simp
  have ha := a.isLt
  rw [hshift, BitVec.toNat_shiftLeft, BitVec.toNat_ushiftRight, Nat.shiftLeft_eq, Nat.shiftRight_eq_div_pow]
  omega

/-- Byte k of an operand is byte `lane` of the aligned word of its first byte where the numbers agree. -/
theorem address_eq_lane_iff {ea : Word} {k lane : Nat} (hk : k < 4) (hlane : lane < 4) :
    (ea &&& 0xFFFFFFFC) + BitVec.ofNat 32 lane = ea + BitVec.ofNat 32 k ↔ ea.toNat % 4 + k = lane := by
  have hea := ea.isLt
  rw [← BitVec.toNat_inj, BitVec.toNat_add, BitVec.toNat_add, wordAligned_toNat, BitVec.toNat_ofNat, BitVec.toNat_ofNat]
  omega

/-- The addresses that an operand of at most a word presents: its own, and the next aligned word's if it reaches that. -/
theorem comparedAddresses_scalar {ea : Word} {n : Nat} (hn : n = 1 ∨ n = 2 ∨ n = 4) : comparedAddresses ea n =
    ea :: if 4 < ea.toNat % 4 + n then [ea + BitVec.ofNat 32 (4 - ea.toNat % 4)] else [] := by
  have haligned (k : Nat) (hk : k < 4) : (!misaligned (ea + BitVec.ofNat 32 k)) =
      decide (ea.toNat % 4 + k = 0 ∨ ea.toNat % 4 + k = 4) := by
    rw [Bool.eq_iff_iff, decide_eq_true_eq, Bool.not_eq_true', misaligned_iff, BitVec.toNat_add, BitVec.toNat_ofNat]
    omega
  have hmod : ea.toNat % 4 = 0 ∨ ea.toNat % 4 = 1 ∨ ea.toNat % 4 = 2 ∨ ea.toNat % 4 = 3 := by omega
  have h1 := haligned 1 (by decide)
  have h2 := haligned 2 (by decide)
  have h3 := haligned 3 (by decide)
  generalize ea.toNat % 4 = m at *
  rcases hmod with rfl | rfl | rfl | rfl <;> rcases hn with rfl | rfl | rfl <;>
      simp [comparedAddresses, byteAddresses, List.range_succ_eq_map, h1, h2, h3]

/-! ## Compares by value -/

/-- What a value compare in a mode other than 00 hits, by the bytes enabled and those that match. -/
def ValueHits (mode : Nat) (on same : Nat → Prop) : Prop :=
  let half (h : Nat) : Prop := (on h ∨ on (h + 1)) ∧ (on h → same h) ∧ (on (h + 1) → same (h + 1))
  (mode = 1 ∧ ∀ lane, lane < 4 → on lane → same lane) ∨ (mode = 2 ∧ ∃ lane, lane < 4 ∧ on lane ∧ same lane) ∨
  (mode = 3 ∧ (half 0 ∨ half 2))

theorem forall_lane {p : Nat → Prop} : (∀ lane, lane < 4 → p lane) ↔ p 0 ∧ p 1 ∧ p 2 ∧ p 3 := by
  constructor
  · exact fun h => ⟨h 0 (by decide), h 1 (by decide), h 2 (by decide), h 3 (by decide)⟩
  · rintro ⟨h0, h1, h2, h3⟩ lane hlane
    interval_cases lane <;> assumption

theorem exists_lane {p : Nat → Prop} : (∃ lane, lane < 4 ∧ p lane) ↔ p 0 ∨ p 1 ∨ p 2 ∨ p 3 := by
  constructor
  · rintro ⟨lane, hlane, h⟩
    interval_cases lane <;> tauto
  · rintro (h | h | h | h)
    exacts [⟨0, by decide, h⟩, ⟨1, by decide, h⟩, ⟨2, by decide, h⟩, ⟨3, by decide, h⟩]

theorem valueMatches_iff {c : DataCompare} {moved : List (Word × Byte)} {a : Word} {on same : Nat → Prop}
    (hon : ∀ lane, lane < 4 → (c.bytes.getMsbD lane = true ↔ on lane))
    (hsame : ∀ lane, lane < 4 →
      (((a &&& 0xFFFFFFFC) + BitVec.ofNat 32 lane, c.value.extractLsb' (24 - 8 * lane) 8) ∈ moved ↔ same lane))
    (hmode : c.mode.toNat ≠ 0) : c.valueMatches moved a = true ↔ ValueHits c.mode.toNat on same := by
  have heach (k : Nat) (hk : k < 4) : (!c.bytes.getMsbD k ||
      moved.contains ((a &&& 0xFFFFFFFC) + BitVec.ofNat 32 k, c.value.extractLsb' (24 - 8 * k) 8)) = true ↔ (on k → same k) := by
    rw [Bool.or_eq_true, List.contains_iff_mem, hsame k hk, ← hon k hk]
    cases c.bytes.getMsbD k <;> simp
  have hone (k : Nat) (hk : k < 4) : (c.bytes.getMsbD k &&
      moved.contains ((a &&& 0xFFFFFFFC) + BitVec.ofNat 32 k, c.value.extractLsb' (24 - 8 * k) 8)) = true ↔ on k ∧ same k := by
    rw [Bool.and_eq_true, List.contains_iff_mem, hsame k hk, hon k hk]
  obtain ⟨heach0, heach1, heach2, heach3⟩ := forall_lane.1 heach
  obtain ⟨hone0, hone1, hone2, hone3⟩ := forall_lane.1 hone
  obtain ⟨hon0, hon1, hon2, hon3⟩ := forall_lane.1 hon
  have hlt := c.mode.isLt
  have hmodes : c.mode = 1 ∨ c.mode = 2 ∨ c.mode = 3 := by
    simp only [← BitVec.toNat_inj]
    change c.mode.toNat = 1 ∨ c.mode.toNat = 2 ∨ c.mode.toNat = 3
    omega
  have h1 : (1 : BitVec 2).toNat = 1 := rfl
  have h2 : (2 : BitVec 2).toNat = 2 := rfl
  have h3 : (3 : BitVec 2).toNat = 3 := rfl
  have h21 : ¬(2 : BitVec 2) = 1 := by decide
  have h31 : ¬(3 : BitVec 2) = 1 := by decide
  have h32 : ¬(3 : BitVec 2) = 2 := by decide
  rw [DataCompare.valueMatches, ValueHits]
  rcases hmodes with h | h | h
  · simp only [h, h1, if_true, List.all_cons, List.all_nil, Bool.and_true, Bool.and_eq_true, heach0, heach1, heach2, heach3,
      forall_lane]
    simp
  · simp only [h, h2, h21, if_true, if_false, List.any_cons, List.any_nil, Bool.or_false, Bool.or_eq_true, hone0, hone1, hone2, hone3, exists_lane]
    simp
  · simp only [h, h3, h31, h32, if_false, List.all_cons, List.all_nil, List.any_cons, List.any_nil, Bool.and_true, Bool.or_false, Bool.and_eq_true,
      Bool.or_eq_true, heach0, heach1, heach2, heach3, hon0, hon1, hon2, hon3]
    simp

/-- For an access only the data compare `second` is enabled: by value, and with an address that the first byte alone hits. -/
structure ComparesFirstByte (s : State) (second store : Bool) (ea : Word) (n : Nat) (tr : Transfer) : Prop where
  hits : DacMatches s second store ea
  alone : ∀ k, 0 < k → k < n → (ea + BitVec.ofNat 32 k).toNat % 4 = 0 → ¬DacMatches s second store (ea + BitVec.ofNat 32 k)
  other : (compareOf s (!second) store).enabled = false
  value : (compareOf s second store).comparesValue = true
  closed : (compareOf s second store).isOpen tr = false

/-- The hits of an access in which compare `second` alone may hit. -/
def hitOf (second hit : Bool) : Bool × Bool := if second then (false, hit) else (hit, false)

/-- Whether the bytes of an access match the value of the compare, in the aligned word of its first byte. -/
def valueHit (s : State) (second store : Bool) (ea : Word) (n : Nat) (tr : Transfer) : Bool :=
  (compareOf s second store).valueMatches (tr.bytes s ea n) ea

section
variable {s t : State} {second store : Bool} {ea : Word} {n : Nat} {tr : Transfer}

theorem hits_other (h : ComparesFirstByte s second store ea n tr) (moved : List (Word × Byte)) (free : Bool) (a : Word) :
    (compareOf s (!second) store).hits (compareRange s) tr moved free a = false := by
  simp [DataCompare.hits, h.other]

theorem hits_own (h : ComparesFirstByte s second store ea n tr) (moved : List (Word × Byte)) (free : Bool) (a : Word) :
    (compareOf s second store).hits (compareRange s) tr moved free a = true ↔
      DacMatches s second store a ∧ (compareOf s second store).valueMatches moved a = true := by
  rw [compare_hits, h.closed]
  simp [h.value]

/-- The two compares at an address of the access. -/
theorem hits_pair (h : ComparesFirstByte s second store ea n tr) {moved : List (Word × Byte)} {a : Word} {hit : Bool}
    (hhit : DacMatches s second store a ∧ (compareOf s second store).valueMatches moved a = true ↔ hit = true) (free free' : Bool) :
    ((s.compare1 store).hits (compareRange s) tr moved free a, (s.compare2 store).hits (compareRange s) tr moved free' a) =
      hitOf second hit := by
  have hown (f : Bool) : (compareOf s second store).hits (compareRange s) tr moved f a = hit := by
    rw [Bool.eq_iff_iff, hits_own h, hhit]
  have hother := hits_other h moved
  cases second
  · exact Prod.ext (hown free) (hother free' a)
  · exact Prod.ext (hother free a) (hown free')

/-- The hits of the access: its first byte's by value, and none in the next aligned word. -/
theorem dataHits_firstByte (h : ComparesFirstByte s second store ea n tr) (hn : n = 1 ∨ n = 2 ∨ n = 4) :
    s.dataHits t ⟨store, ea, n, tr⟩ = hitOf second (valueHit s second store ea n tr) ::
      if 4 < ea.toNat % 4 + n then [hitOf second false] else [] := by
  have hfirst : DacMatches s second store ea ∧ (compareOf s second store).valueMatches (tr.bytes s ea n) ea = true ↔
      valueHit s second store ea n tr = true := and_iff_right h.hits
  have haddresses : comparedAddresses ea n = ea :: if 4 < ea.toNat % 4 + n then [ea + BitVec.ofNat 32 (4 - ea.toNat % 4)] else [] :=
    comparedAddresses_scalar hn
  by_cases hcross : 4 < ea.toNat % 4 + n
  · have hnext : ¬DacMatches s second store (ea + BitVec.ofNat 32 (4 - ea.toNat % 4)) := by
      refine h.alone _ (by omega) (by omega) ?_
      rw [BitVec.toNat_add, BitVec.toNat_ofNat]
      omega
    rw [if_pos hcross] at haddresses ⊢
    rw [State.dataHits, haddresses]
    exact congrArg₂ List.cons (hits_pair h hfirst _ _)
      (congrArg (fun p => [p]) (hits_pair h (iff_of_false (fun hboth => hnext hboth.1) Bool.false_ne_true) _ _))
  · rw [if_neg hcross] at haddresses ⊢
    rw [State.dataHits, haddresses]
    exact congrArg (fun p => [p]) (hits_pair h hfirst _ _)

/-! ## What a hit leaves of the access -/

theorem compareDraws_closed (h : ComparesFirstByte s second store ea n tr) : s.compareDraws ⟨store, ea, n, tr⟩ = 0 := by
  have hother : (compareOf s (!second) store).isOpen tr = false := by
    simp [DataCompare.isOpen, DataCompare.comparesValue, h.other]
  have hown := h.closed
  cases second
  · rw [State.compareDraws, if_neg (by simp [compareOf] at hother hown; simp [hother, hown])]
  · rw [State.compareDraws, if_neg (by simp [compareOf] at hother hown; simp [hother, hown])]

/-- The first part of a misaligned access ends it where it hits with MSR[DE] = 1. -/
theorem stopPart_firstByte (h : ComparesFirstByte s second store ea n tr) (hn : n = 1 ∨ n = 2 ∨ n = 4)
    (hmode : s.internalDebug = true) (hmisaligned : tr.isMisaligned ea n = (ea.toNat % n != 0)) :
    s.stopPart t ⟨store, ea, n, tr⟩ =
      if s.deBit && ea.toNat % n != 0 && valueHit s second store ea n tr then some 0 else none := by
  have hvalue := h.value
  have hfirst (hit : Bool) : ((hitOf second hit).1 && (s.compare1 store).comparesValue ||
      (hitOf second hit).2 && (s.compare2 store).comparesValue) = hit := by
    cases second
    · simp [hitOf, show (s.compare1 store).comparesValue = true from hvalue]
    · simp [hitOf, show (s.compare2 store).comparesValue = true from hvalue]
  have hfind : (s.dataHits t ⟨store, ea, n, tr⟩).findIdx? (fun hit =>
      (hit.1 && (s.compare1 store).comparesValue) || (hit.2 && (s.compare2 store).comparesValue)) =
        if valueHit s second store ea n tr then some 0 else none := by
    rw [dataHits_firstByte h hn, List.findIdx?_cons, hfirst]
    split
    · rfl
    · split
      · simp [hfirst]
      · rfl
  rw [State.stopPart, hmode, hmisaligned, Bool.true_and, hfind]
  generalize (s.deBit && ea.toNat % n != 0) = stops
  cases stops
  · rfl
  · rw [Bool.true_and, if_pos rfl]

/-- The DBSR bits of a list of hits. -/
def hitEvents (store : Bool) (hits : List (Bool × Bool)) : Word :=
  (if hits.any (·.1) then bitMask (if store then 8 else 7) else 0) |||
    (if hits.any (·.2) then bitMask (if store then 10 else 9) else 0)

theorem hitEvents_first (second store hit : Bool) {rest : List (Bool × Bool)} (hrest : rest = [] ∨ rest = [hitOf second false]) :
    hitEvents store (hitOf second hit :: rest) = if hit then bitMask (dacStatusBit second store) else 0 := by
  rcases hrest with rfl | rfl
  · cases second <;> cases store <;> cases hit <;> rfl
  · cases second <;> cases store <;> cases hit <;> rfl

/-- The DBSR bit of the compare, if the first byte hits. -/
theorem dacEvents_firstByte {i : Instr} (href : dataReference i s = some (store, ea, n))
    (h : ComparesFirstByte s second store ea n (transfer i s)) (hn : n = 1 ∨ n = 2 ∨ n = 4) (hmode : s.internalDebug = true)
    (hmisaligned : (transfer i s).isMisaligned ea n = (ea.toNat % n != 0)) :
    dacEvents i s t = if valueHit s second store ea n (transfer i s) then bitMask (dacStatusBit second store) else 0 := by
  have haccess : dataAccess i s = some ⟨store, ea, n, transfer i s⟩ := by rw [dataAccess, href]; rfl
  have hrest : (if 4 < ea.toNat % 4 + n then [hitOf second false] else []) = [] ∨
      (if 4 < ea.toNat % 4 + n then [hitOf second false] else []) = [hitOf second false] := by split <;> simp
  rw [dacEvents, haccess]
  cases hstop : s.stopPart t ⟨store, ea, n, transfer i s⟩ with
  | none =>
    simp only [hstop, dataHits_firstByte h hn]
    exact hitEvents_first second store _ hrest
  | some p =>
    have hp : p = 0 := by
      rw [stopPart_firstByte h hn hmode hmisaligned] at hstop
      split at hstop
      · exact (Option.some.inj hstop).symm
      · contradiction
    simp only [hstop, dataHits_firstByte h hn, hp, List.take_succ_cons, List.take_zero]
    exact hitEvents_first second store _ (.inl rfl)

/-- An access is cut short where its first byte hits with MSR[DE] = 1 and it reaches into the next aligned word. -/
theorem underCompares_firstByte {i : Instr} (href : dataReference i s = some (store, ea, n))
    (h : ComparesFirstByte s second store ea n (transfer i s)) (hn : n = 1 ∨ n = 2 ∨ n = 4) (hmode : s.internalDebug = true)
    (hmisaligned : (transfer i s).isMisaligned ea n = (ea.toNat % n != 0)) (hdone : t.completed = true) :
    underCompares i s t =
      if s.deBit && valueHit s second store ea n (transfer i s) && decide (4 < ea.toNat % 4 + n) then
        s.withoutBytesFrom t ⟨store, ea, n, transfer i s⟩ (4 - ea.toNat % 4)
      else t := by
  have haccess : dataAccess i s = some ⟨store, ea, n, transfer i s⟩ := by rw [dataAccess, href]; rfl
  have hdrawn : t.drawn 0 = t := rfl
  have hcut : (ea + BitVec.ofNat 32 (4 - ea.toNat % 4) - ea).toNat = 4 - ea.toNat % 4 := by
    rw [add_sub_cancel_left, BitVec.toNat_ofNat]
    omega
  have hcross : 4 < ea.toNat % 4 + n → ea.toNat % n ≠ 0 := by
    rcases hn with rfl | rfl | rfl <;> omega
  have hstop := stopPart_firstByte (t := t) h hn hmode hmisaligned
  have haddresses := comparedAddresses_scalar (ea := ea) hn
  rw [underCompares, haccess]
  simp only [hmode, hdone, Bool.and_self, if_true, compareDraws_closed h, hdrawn]
  by_cases hreach : 4 < ea.toNat % 4 + n
  · rw [bne_iff_ne.2 (hcross hreach), Bool.and_true] at hstop
    rw [if_pos hreach] at haddresses
    rw [hstop, haddresses, decide_eq_true hreach, Bool.and_true]
    generalize (s.deBit && valueHit s second store ea n (transfer i s)) = stops
    cases stops
    · rfl
    · exact congrArg (s.withoutBytesFrom t _) hcut
  · rw [if_neg hreach] at haddresses
    rw [hstop, haddresses, decide_eq_false hreach, Bool.and_false]
    generalize (s.deBit && ea.toNat % n != 0 && valueHit s second store ea n (transfer i s)) = stops
    cases stops <;> rfl

/-- Storage in which some bytes are again what they were in m0. -/
theorem read_restored (m0 : List Host.Cell) (a : Nat) (ras : List Word) {m : List Host.Cell} (hm : Memory.wf m = true) :
    Memory.read (ras.foldl (fun m ra => Memory.write m ra.toNat (Memory.read m0 ra.toNat)) m) a =
      if a ∈ ras.map (·.toNat) then Memory.read m0 a else Memory.read m a := by
  induction ras generalizing m with
  | nil => simp
  | cons ra ras ih =>
    rw [List.foldl_cons, ih (wf_write hm ra _)]
    by_cases hrest : a ∈ ras.map (·.toNat)
    · simp only [hrest, List.map_cons, List.mem_cons, or_true, if_true]
    · by_cases hhere : a = ra.toNat
      · simp [hhere, read_write_same hm]
      · simp [hrest, hhere, read_write_other m _ hhere]

/-- The storage addresses of the bytes from number c on. -/
theorem mem_placesFrom {c a : Nat} : a ∈ (((byteAddresses ea n).drop c).map (s.realData store)).map (·.toNat) ↔
    ∃ k, k < n ∧ c ≤ k ∧ a = place s store ea k := by
  have hdrop (k : Nat) : k ∈ (List.range n).drop c ↔ c ≤ k ∧ k < n := by
    rw [List.range_eq_range', List.drop_range', List.mem_range'_1]
    omega
  simp only [byteAddresses, ← List.map_drop, List.map_map, List.mem_map, hdrop]
  constructor
  · rintro ⟨k, ⟨hc, hk⟩, rfl⟩
    exact ⟨k, hk, hc, rfl⟩
  · rintro ⟨k, hk, hc, rfl⟩
    exact ⟨k, ⟨hc, hk⟩, rfl⟩

/-- Storage after an access that is cut short at byte c. -/
theorem withoutBytesFrom_mem (hm : Memory.wf t.mem = true) (c a : Nat) :
    Memory.read (s.withoutBytesFrom t ⟨store, ea, n, tr⟩ c).mem a =
      if store = true ∧ ∃ k, k < n ∧ c ≤ k ∧ a = place s store ea k then Memory.read s.mem a else Memory.read t.mem a := by
  rw [State.withoutBytesFrom, freeRegs_mem]
  cases store
  · rfl
  · simp only [if_true, true_and, read_restored s.mem a _ hm, mem_placesFrom]

/-- The other parts of an access that is cut short: the registers it does not write and what is no register or storage. -/
theorem withoutBytesFrom_frame {i : Instr} {r : Reg} (h : ScalarMoves i r store ea n s t) (c : Nat) :
    let t' := s.withoutBytesFrom t ⟨store, ea, n, transfer i s⟩ c
    RegsKept (if store then [] else [r]) t t' ∧ t' = { t with mem := t'.mem, gpr := t'.gpr, freeCount := t'.freeCount } := by
  have hlog : t.hostLog = s.hostLog := by rw [h.frame]
  refine ⟨fun q hq => ?_, ?_⟩
  · rw [State.withoutBytesFrom, h.targets, reg_freeRegs hq]
    rfl
  · rw [State.withoutBytesFrom, freeRegs_eq, hlog]
    simp

/-- What an access that is cut short at byte c leaves. -/
theorem withoutBytesFrom_scalar {i : Instr} {r : Reg} (hm : Memory.wf s.mem = true) (h : ScalarMoves i r store ea n s t) (c : Nat) :
    let t' := s.withoutBytesFrom t ⟨store, ea, n, transfer i s⟩ c
    (∀ k, k < n → c ≤ k → Memory.read t'.mem (place s store ea k) = Memory.read s.mem (place s store ea k)) ∧
      (∀ a, (∀ k, k < n → c ≤ k → a ≠ place s store ea k) → Memory.read t'.mem a = Memory.read t.mem a) := by
  refine ⟨fun k hk hc => ?_, fun a ha => ?_⟩
  · rw [withoutBytesFrom_mem (h.storage hm)]
    cases store
    · rw [if_neg (by simp), h.loads rfl]
    · exact if_pos ⟨rfl, k, hk, hc, rfl⟩
  · rw [withoutBytesFrom_mem (h.storage hm), if_neg]
    rintro ⟨-, k, hk, hc, heq⟩
    exact ha k hk hc heq

/-- An instruction that completes with the completion event off records the events of the data compares. -/
theorem afterInstruction_recorded {dac : Word} (hmode : t.internalDebug = true) (hentry : t.entry = none)
    (hic : bitOf t.dbcr0 4 = false) : afterInstruction dac t = recordDebugEvents dac t := by
  have hnone : recordException (recordDebugEvents dac t) = recordDebugEvents dac t := by
    rw [recordDebugEvents_frame, recordException]
    simp only [hentry]
  simp [afterInstruction, State.completed, hentry, hmode, hic, hnone]

theorem recordDebugEvents_dac (second store : Bool) (t : State) : recordDebugEvents (bitMask (dacStatusBit second store)) t =
    { t with dbsr := t.dbsr ||| (bitMask (dacStatusBit second store) ||| (if t.deBit then 0 else 0x00100000)) } := by
  have hmask : bitMask (dacStatusBit second store) &&& debugEventMask = bitMask (dacStatusBit second store) := by
    cases second <;> cases store <;> rfl
  have hne : (bitMask (dacStatusBit second store) != 0) = true := by cases second <;> cases store <;> rfl
  rw [recordDebugEvents_eq hmask, hne, BitVec.or_assoc]
  cases t.deBit <;> rfl

/-! ## The fields of DBCR1 -/

/-- Byte `lane` of the aligned word is enabled for the value compare. -/
def LaneOn (s : State) (second : Bool) (lane : Nat) : Prop := bitOf s.dbcr1 ((if second then 20 else 16) + lane) = true

/-- Byte `lane` of the aligned word is moved by the access and equals the value's. -/
def LaneSame (s t : State) (second store : Bool) (ea : Word) (n lane : Nat) : Prop :=
  ∃ k, k < n ∧ ea.toNat % 4 + k = lane ∧
    (Memory.read t.mem (place s store ea k)).toNat = byteOfNat 4 lane (if second then s.dvc2 else s.dvc1).toNat

/-- The mode of the value compare, DBCR1[DV1M] or DBCR1[DV2M]. -/
def compareMode (s : State) (second : Bool) : Nat := s.dbcr1.toNat / 2 ^ (if second then 16 else 18) % 4

theorem compareOf_mode (s : State) (second store : Bool) : (compareOf s second store).mode.toNat = compareMode s second := by
  cases second <;> exact (BitVec.extractLsb'_toNat ..).trans (by rw [Nat.shiftRight_eq_div_pow]; rfl)

theorem compareOf_bytes (s : State) (second store : Bool) {lane : Nat} (hlane : lane < 4) :
    (compareOf s second store).bytes.getMsbD lane = true ↔ LaneOn s second lane := by
  cases second
  · interval_cases lane <;> simp [compareOf, State.compare1, LaneOn, bitOf, BitVec.getMsbD]
  · interval_cases lane <;> simp [compareOf, State.compare2, LaneOn, bitOf, BitVec.getMsbD]

theorem compareOf_value (s : State) (second store : Bool) :
    (compareOf s second store).value = if second then s.dvc2 else s.dvc1 := by cases second <;> rfl

/-- A hit by value, in the bytes that storage holds after the access. -/
theorem valueHit_iff {i : Instr} {r : Reg} (h : ScalarMoves i r store ea n s t) (hmode : compareMode s second ≠ 0) :
    valueHit s second store ea n (transfer i s) = true ↔
      ValueHits (compareMode s second) (LaneOn s second) (LaneSame s t second store ea n) := by
  rw [← compareOf_mode s second store] at hmode ⊢
  refine valueMatches_iff (fun lane hlane => compareOf_bytes s second store hlane) (fun lane hlane => ?_) hmode
  rw [h.moved, List.mem_map]
  have hbyte : (((if second then s.dvc2 else s.dvc1) : Word).extractLsb' (24 - 8 * lane) 8).toNat =
      byteOfNat 4 lane (if second then s.dvc2 else s.dvc1).toNat := by
    rw [← byteOfNat_eq, show 24 - 8 * lane = 8 * (4 - 1 - lane) by omega]
  have hn : n ≤ 4 := by rcases h.width with rfl | rfl | rfl <;> decide
  refine exists_congr fun k => ?_
  rw [List.mem_range, Prod.mk.injEq, compareOf_value, ← BitVec.toNat_inj (y := BitVec.extractLsb' _ _ _), hbyte]
  refine and_congr_right fun hk => and_congr_left fun _ => ?_
  rw [eq_comm, address_eq_lane_iff (by omega) hlane]

/-- The compare of an access that moves data is not open in a mode other than 00. -/
theorem isOpen_eq_false {c : DataCompare} (hmode : c.mode ≠ 0) (htold : tr ≠ .untold) : c.isOpen tr = false := by
  unfold DataCompare.isOpen
  rw [beq_false_of_ne hmode]
  cases tr with
  | untold => exact absurd rfl htold
  | _ => exact Bool.and_false _

theorem comparesFirstByte_of {i : Instr} {r : Reg} (h : ScalarMoves i r store ea n s t) (hhits : DacMatches s second store ea)
    (halone : ∀ k, 0 < k → k < n → (ea + BitVec.ofNat 32 k).toNat % 4 = 0 →
      ¬DacMatches s second store (ea + BitVec.ofNat 32 k))
    (hother : bitOf s.dbcr1 ((if store then 2 else 0) + (if second then 0 else 1)) = false)
    (hmode : compareMode s second ≠ 0) (hon : ∃ lane, lane < 4 ∧ LaneOn s second lane) :
    ComparesFirstByte s second store ea n (transfer i s) := by
  have henabled := hhits.1
  obtain ⟨lane, hlane, hon⟩ := hon
  have henabled' : (compareOf s second store).enabled = true := by cases second <;> cases store <;> exact henabled
  have hbytes : (compareOf s second store).bytes ≠ 0 := fun hzero => by
    rw [← compareOf_bytes s second store hlane, hzero] at hon
    simp at hon
  have hmode' : (compareOf s second store).mode ≠ 0 := fun hzero => by
    rw [← compareOf_mode s second store, hzero] at hmode
    exact hmode rfl
  refine ⟨hhits, halone, by cases second <;> cases store <;> exact hother, ?_, ?_⟩
  · rw [DataCompare.comparesValue, henabled', bne_iff_ne.2 hbytes]
    rfl
  · exact isOpen_eq_false hmode' h.told

/-! ## The step -/

theorem iacEvents_eq_zero (h : s.dbcr0 &&& 0x08CC0000 = 0) : s.iacEvents = 0 := by
  have off {j : Nat} (hj : bitOf 0x08CC0000 j = true) := bitOf_eq_false_of_and h hj
  have h1 : bitOf s.dbcr0 8 = false := off rfl
  have h2 : bitOf s.dbcr0 9 = false := off rfl
  have h3 : bitOf s.dbcr0 12 = false := off rfl
  have h4 : bitOf s.dbcr0 13 = false := off rfl
  simp [State.iacEvents, h1, h2, h3, h4]

theorem branchEvents_scalar {r ra rb : Reg} {d : BitVec 16} {nr : Bool} : ∀ i ∈ scalarReferences r ra rb d nr,
    branchEvents i s = 0 := by
  have hnone {i : Instr} (h : takesBranch i s = false) : branchEvents i s = 0 := by simp [branchEvents, h]
  simp only [scalarReferences, List.forall_mem_cons, List.not_mem_nil, false_implies, implies_true, and_true]
  and_intros
  all_goals exact hnone rfl

/-- The step of a scalar load or store that completes. -/
theorem step_scalar {u : State} {bytes rest : List Byte} {i : Instr} {r ra rb : Reg} {d : BitVec 16} {nr : Bool}
    (hidle : s.inputs.headD HostInput.idle = HostInput.idle) (hu : u = { s with inputs := s.inputs.tail, entry := none })
    (hmode : u.internalDebug = true) (hdebug : u.debugRefusal = none) (hpending : pendingInterrupts HostInput.idle u = [])
    (hwait : u.weBit = false) (hiac : u.dbcr0 &&& 0x08CC0000 = 0) (hfetch : u.fetch = .ok bytes)
    (hdecode : decode bytes = .ok (i, rest)) (hi : i ∈ scalarReferences r ra rb d nr) (hexec : exec i u.afterFetch = .next t) :
    step s = .next (afterInstruction (dacEvents i u.afterFetch t) (underCompares i u.afterFetch t)) := by
  have hzero : u.iacEvents = 0 := iacEvents_eq_zero hiac
  have hnone : recordDebugEvents u.iacEvents u = u := by simp [hzero, recordDebugEvents]
  have hstep : step s = executeNext u :=
    (step_of_input hidle hu).trans (boundary_eq_executeNext hdebug hpending hwait)
  rw [hstep, executeNext_eq hmode (.inr hzero) hfetch hdecode, hnone, executeInstr, branchEvents_scalar i hi,
    beforeInstruction_zero, hexec]

/-! ## The end of the instruction -/

/-- What a scalar load or store that completes keeps of the debug modes. -/
theorem ScalarMoves.debugModes {i : Instr} {r : Reg} (h : ScalarMoves i r store ea n s t) :
    t.internalDebug = s.internalDebug ∧ t.deBit = s.deBit ∧ t.dbcr0 = s.dbcr0 ∧ t.entry = s.entry := by
  rw [h.frame]
  exact ⟨rfl, rfl, rfl, rfl⟩

theorem ScalarMoves.completed {i : Instr} {r : Reg} (h : ScalarMoves i r store ea n s t) (hentry : s.entry = none) :
    t.completed = true := by
  obtain ⟨-, -, -, hentry'⟩ := h.debugModes
  rw [State.completed, hentry', hentry]
  rfl

section
variable {i : Instr} {r : Reg} (hmoves : ScalarMoves i r store ea n s t)
  (hcompare : ComparesFirstByte s second store ea n (transfer i s)) (href : dataReference i s = some (store, ea, n))
  (hmode : s.internalDebug = true) (hentry : s.entry = none) (hic : bitOf s.dbcr0 4 = false)
include hmoves hcompare href hmode hentry hic

/-- The end of an access that is not cut short. -/
theorem afterInstruction_whole (hwhole : (s.deBit && valueHit s second store ea n (transfer i s) &&
    decide (4 < ea.toNat % 4 + n)) = false) :
    afterInstruction (dacEvents i s t) (underCompares i s t) =
      recordDebugEvents (if valueHit s second store ea n (transfer i s) then bitMask (dacStatusBit second store) else 0) t := by
  obtain ⟨hmode', -, hdbcr0, hentry'⟩ := hmoves.debugModes
  rw [dacEvents_firstByte href hcompare hmoves.width hmode hmoves.misaligned,
    underCompares_firstByte href hcompare hmoves.width hmode hmoves.misaligned
      (hmoves.completed hentry), hwhole, if_neg Bool.false_ne_true]
  exact afterInstruction_recorded (hmode'.trans hmode) (hentry'.trans hentry) (hdbcr0 ▸ hic)

theorem afterInstruction_noHit (hhit : valueHit s second store ea n (transfer i s) = false) :
    afterInstruction (dacEvents i s t) (underCompares i s t) = t := by
  rw [afterInstruction_whole hmoves hcompare href hmode hentry hic (by simp [hhit]), hhit]
  rfl

theorem afterInstruction_hit (hhit : valueHit s second store ea n (transfer i s) = true)
    (hwhole : ea.toNat % 4 + n ≤ 4 ∨ s.deBit = false) :
    afterInstruction (dacEvents i s t) (underCompares i s t) =
      { t with dbsr := t.dbsr ||| (bitMask (dacStatusBit second store) ||| (if s.deBit then 0 else 0x00100000)) } := by
  obtain ⟨-, hde, -⟩ := hmoves.debugModes
  have hcut : (s.deBit && valueHit s second store ea n (transfer i s) && decide (4 < ea.toNat % 4 + n)) = false := by
    rcases hwhole with hreach | hde
    · rw [decide_eq_false (by omega), Bool.and_false]
    · rw [hde, Bool.false_and, Bool.false_and]
  rw [afterInstruction_whole hmoves hcompare href hmode hentry hic hcut, hhit, if_pos rfl, recordDebugEvents_dac, hde]

theorem afterInstruction_cut (hm : Memory.wf s.mem = true) (hhit : valueHit s second store ea n (transfer i s) = true)
    (hreach : 4 < ea.toNat % 4 + n) (hde : s.deBit = true) :
    ∃ t', afterInstruction (dacEvents i s t) (underCompares i s t) = t' ∧
      (∀ k, k < n → 4 ≤ ea.toNat % 4 + k → Memory.read t'.mem (place s store ea k) = Memory.read s.mem (place s store ea k)) ∧
      (∀ a, (∀ k, k < n → 4 ≤ ea.toNat % 4 + k → a ≠ place s store ea k) → Memory.read t'.mem a = Memory.read t.mem a) ∧
      RegsKept (if store then [] else [r]) t t' ∧
      t' = { t with mem := t'.mem, gpr := t'.gpr, freeCount := t'.freeCount,
                    dbsr := t.dbsr ||| (bitMask (dacStatusBit second store) ||| (if s.deBit then 0 else 0x00100000)) } := by
  obtain ⟨hmode', hde', hdbcr0, hentry'⟩ := hmoves.debugModes
  obtain ⟨hrestored, hkept⟩ := withoutBytesFrom_scalar hm hmoves (4 - ea.toNat % 4)
  obtain ⟨hregs, hframe⟩ := withoutBytesFrom_frame hmoves (4 - ea.toNat % 4)
  have hevents := dacEvents_firstByte (t := t) href hcompare hmoves.width hmode hmoves.misaligned
  have hcut := underCompares_firstByte href hcompare hmoves.width hmode hmoves.misaligned (hmoves.completed hentry)
  rw [hhit, if_pos rfl] at hevents
  rw [hhit, hde, decide_eq_true hreach, Bool.and_self, Bool.and_self, if_pos rfl] at hcut
  rw [hevents, hcut]
  generalize s.withoutBytesFrom t ⟨store, ea, n, transfer i s⟩ (4 - ea.toNat % 4) = u at *
  have hu : u.internalDebug = t.internalDebug ∧ u.entry = t.entry ∧ u.dbcr0 = t.dbcr0 ∧ u.deBit = t.deBit ∧ u.dbsr = t.dbsr := by
    rw [hframe]
    exact ⟨rfl, rfl, rfl, rfl, rfl⟩
  obtain ⟨hmodeU, hentryU, hdbcr0U, hdeU, hdbsrU⟩ := hu
  rw [afterInstruction_recorded (hmodeU.trans (hmode'.trans hmode)) (hentryU.trans (hentry'.trans hentry))
    (by rwa [hdbcr0U, hdbcr0]), recordDebugEvents_dac, hdeU, hde', hdbsrU]
  refine ⟨_, rfl, fun k hk hc => hrestored k hk (by omega), fun a ha => hkept a fun k hk hc => ha k hk (by omega), hregs, ?_⟩
  rw [hframe]

end

end

/-- Settles O60: the instruction's own effect, its hit, and what a hit leaves of it. -/
theorem dataValueCompares : Obligations.DataValueCompares := by
  unfold Obligations.DataValueCompares
  intro s hidm hext hdebug hm hidle u v hpending hwait hiac bytes rest i r ra rb d nr hfetch hdecode hi store second ea n t href
    hacc hhits halone hother hexec place on same half hit mode events hmode0 hon
  have hmode : u.internalDebug = true := internalDebug_eq_true hidm hext
  have hstep : step s = .next (afterInstruction (dacEvents i v t) (underCompares i v t)) :=
    step_scalar hidle rfl hmode hdebug hpending hwait hiac hfetch hdecode hi hexec
  obtain ⟨log, hlog⟩ := afterFetch_eq_log u
  have hv : v = { u with hostLog := log } := hlog
  clear_value v
  subst hv
  have hmoves := scalarMoves (s := { u with hostLog := log }) hm hi href hacc hexec
  have hcompare : ComparesFirstByte { u with hostLog := log } second store ea n (transfer i { u with hostLog := log }) :=
    comparesFirstByte_of hmoves hhits halone hother hmode0 hon
  have hvalue := valueHit_iff (second := second) hmoves hmode0
  have hic : bitOf s.dbcr0 4 = false := bitOf_eq_false_of_and hiac rfl
  rw [hstep]
  refine ⟨fun hnot => ?noHit, fun hhit hwhole => ?hit, fun hhit hreach hde => ?cut⟩
  case noHit =>
    rw [afterInstruction_noHit hmoves hcompare href hmode rfl hic (Bool.eq_false_iff.2 fun h => hnot (hvalue.1 h))]
  case hit =>
    rw [afterInstruction_hit hmoves hcompare href hmode rfl hic (hvalue.2 hhit) hwhole]
    rfl
  case cut =>
    obtain ⟨t', ht', hleaves⟩ := afterInstruction_cut hmoves hcompare href hmode rfl hic hm (hvalue.2 hhit) hreach hde
    rw [ht']
    exact ⟨t', rfl, hleaves⟩

end Sys2Proof.Proofs
end
